-- ==== Sys2Proof/Word.lean ====
section
/-! DEFINITION. The words of the block: bytes, request words and the narrow operand fields
(00_scope.md R9, R10: every value is an 8-bit unsigned byte unless its type is named). -/

namespace Sys2Proof

/-- A byte: the width of every port transfer and of every holding register (R9, R10). -/
abbrev Byte := BitVec 8

/-- A `HOSTOP` request word, `op[23:16] arg0[15:8] arg1[7:0]` (30_encoding.md R91). -/
abbrev RequestWord := BitVec 24

end Sys2Proof
end

