-- ==== Sys2Proof/Config.lean ====
section
/-! DEFINITION. What an implementation fixes (00_scope.md R9), the external scancode decoder
(44_keyboard_session.md R231, 93 U9) and the free values. The constants without a body are free:
nothing can be proved of their values. -/

namespace Sys2Proof

/-- The open parameters of the block (00_scope.md R9; 92 D6, D22, D32). They are configuration, not
state (10_state.md R39): the machine carries them in a field no instruction writes (log 1). -/
structure Config where
  /-- `QUEUE_CAPACITY`: how many not-yet-started commands the FIFO holds, at least 1. -/
  queueCapacity : Nat
  /-- `OVERRUN_CODE`: the byte that means key-detection overrun. -/
  overrunCode : Byte
  /-- `PASSWORD_ACTIVE_LEVEL`: the level of status bit 4 that means password state active. -/
  passwordActiveLevel : Bool
  deriving DecidableEq, Repr

/-- The defaults the spec names for `OVERRUN_CODE` and `PASSWORD_ACTIVE_LEVEL`, with the queue
capacity of the spec's test vectors. DESIGN CHOICE (log 1), unsafe: no statement rests on the 4. -/
def Config.documented : Config :=
  { queueCapacity := 4, overrunCode := 0x00, passwordActiveLevel := false }

/-- The one condition R9 puts on the parameters: `QUEUE_CAPACITY >= 1`. -/
abbrev Config.wf (cfg : Config) : Prop := 1 ≤ cfg.queueCapacity

/-- The I/O address of the data port, read and write (R9, 20_memory.md R61). -/
def Config.dataPort : Nat := 0x60

/-- The I/O address of the status register, read (R9, R61). -/
def Config.statusPort : Nat := 0x64

/-- The I/O address of the command register, write (R9, R61). -/
def Config.commandPort : Nat := 0x64

/-- The decoding tables of the external scancode decoder (10_state.md R38). -/
inductive ScancodeTable where
  | set1
  | set2
  deriving DecidableEq, Repr, Inhabited

/-- The state of the external scancode decoder (10_state.md R38): the selected table, and a token
that stands for all the rest of it, such as a scancode in progress (log 9). -/
structure DecoderState where
  table : ScancodeTable
  progress : Nat
  deriving DecidableEq, Repr, Inhabited

/-- What `Decode(b)` answers (44_keyboard_session.md R231). A `KeyEvent` and a `DecodeError` are
opaque to the block: tokens that are only passed on (log 9). -/
inductive DecodeResult where
  /-- `Ok(None)`: no event yet. -/
  | noEvent
  /-- `Ok(Some(KeyEvent))`. -/
  | key (ev : Nat)
  /-- `Err(DecodeError)`. -/
  | failed (e : Nat)
  deriving DecidableEq, Repr, Inhabited

/-- The external decoder's `Decode(b)` (R231, 93 U9): its answer and its next state, both free. -/
opaque Config.scancodeDecode : DecoderState → Byte → DecodeResult × DecoderState

/-- What `DecoderReset()` leaves of the decoder besides the selected table (R231, 93 U9): free. -/
opaque Config.decoderReset : DecoderState → Nat

/-- The free values (log 3): the n-th byte that the spec leaves without a meaningful value. -/
opaque Config.freeByte : Nat → Byte

end Sys2Proof
end

