-- ==== Sys2Proof/Syntax.lean ====
section
/-! DEFINITION. The instructions: one constructor for every row of spec/opcode_table.json, in the
table's order, and the words at the interfaces where each of the four formats stands
(30_encoding.md R90). -/

namespace Sys2Proof

/-- One constructor per row of the opcode table. Host operations (`HOSTOP`, R92) carry the operands
the operation uses; controller commands (`CTLCMD`, R95) of the parameter class and device commands
(`DEVCMD`, R100) with a payload carry that byte. -/
inductive Instr where
  -- HOSTOP: host operation requests (30_encoding.md R92)
  | readStatus
  | startInit
  | setTranslation (en : Bool)
  | selfTest
  | keyboardInterfaceTest
  | auxInterfaceTest
  | ramRead (idx : BitVec 5)
  | ramWrite (idx : BitVec 5) (v : Byte)
  | cpuReset
  | enableDevices (sel : BitVec 2)
  | enableDevicesAndInterrupts (sel : BitVec 2)
  | sendToKeyboard (b : Byte)
  | sendToAuxiliaryDevice (b : Byte)
  | pollData
  | disableDevices
  | kbdReceive (b : Byte)
  | kbdDisable
  | kbdSetDefaults
  | kbdEnable
  | kbdSetLeds (leds : Byte)
  | kbdSetTypematic (rate : Byte)
  | kbdSelectScancodeSet (n : Byte)
  | kbdReadId
  | kbdEcho
  -- CTLCMD: controller commands written to port 0x64 (R95 to R98)
  | ctlReadCommandByte
  | ctlReadRam (idx : BitVec 5)
  | ctlWriteCommandByte (d : Byte)
  | ctlWriteRam (idx : BitVec 5) (d : Byte)
  | ctlDisableAux
  | ctlEnableAux
  | ctlAuxTest
  | ctlSelfTest
  | ctlKbdTest
  | ctlDisableKbd
  | ctlEnableKbd
  | ctlWriteToAux (d : Byte)
  | ctlPulseOutput (mask : BitVec 4)
  -- DEVCMD: device commands written to port 0x60 (R100, R101)
  | devSetIndicators (payload : Byte)
  | devEcho
  | devSelectScancodeSet (payload : Byte)
  | devReadId
  | devSetTypematic (payload : Byte)
  | devEnable
  | devDisable
  | devSetDefaults
  -- RESP: response bytes read from port 0x60 (R99, R102)
  | respAck
  | respResend
  | respEchoReply
  | respBatOk
  | respBatFail
  | respKeyDetectionOverrun
  | respSelfTestPassed
  | respInterfaceTestPassed
  | respClockLineLow
  | respClockLineHigh
  | respDataLineLow
  | respDataLineHigh
  deriving DecidableEq, Repr

/-- A word at the interface where it stands. R104: the same byte value means different things on
different ports and in different directions, so a decoder keys on the interface, never on the value
alone. A response to a controller command carries the command it answers (R99). -/
inductive Presented where
  /-- A 24-bit request on the host port (R91). -/
  | request (w : RequestWord)
  /-- A byte for the command port 0x64, with the byte that follows it on port 0x60 where the
  command's class has one (R95, R98). -/
  | controllerCommand (b param : Byte)
  /-- A byte for the keyboard on port 0x60, with its payload byte where it has one (R100, R101). -/
  | deviceCommand (b payload : Byte)
  /-- A byte read from port 0x60 as keyboard data (R102). -/
  | keyboardByte (b : Byte)
  /-- A byte read from port 0x60 in answer to the controller command `after` (R99). -/
  | controllerResponse (after b : Byte)
  deriving DecidableEq, Repr

/-- Why the decoder gives no instruction. -/
inductive DecodeReject where
  /-- The `op` code is not in the table of R92 (R105(a)). -/
  | unknownOperation
  /-- The byte is no controller command of R95 (R105(b): the block never writes it). -/
  | notAControllerCommand (b : Byte)
  /-- The byte is no device command of R100 (R105(c)). -/
  | notADeviceCommand (b : Byte)
  /-- Keyboard data with no fixed meaning: no byte is illegal (R102, R105(d)). -/
  | plainKeyboardByte (b : Byte)
  /-- A response byte with no fixed meaning after that command (R99). -/
  | plainResponse (b : Byte)
  deriving DecidableEq, Repr

end Sys2Proof
end

