-- ==== Sys2Proof/WellFormed.lean ====
section
/-! DEFINITION. Which terms of `Instr` are instructions of the block (30_encoding.md R95 to R97,
R102, R105). A term that is not stands for no word of its own. -/

namespace Sys2Proof

/-- The check. RAM commands exist for indices 1 to 31 (index 0 is the command byte's command, R96);
of the pulse commands only 0xFE is an instruction of the block (R97, R105(b), 93 U5(a)); a keyboard
sentinel whose byte equals `OVERRUN_CODE` is taken as the overrun (44_keyboard_session.md R251), so
it is not a word of its own. Host operations have no ill-formed term: an operand outside its legal
range is a request the block answers with `BadOperand` (60_exceptions.md R274). -/
def Instr.wellFormed (cfg : Config) : Instr → Bool
  | .ctlReadRam idx => idx != 0
  | .ctlWriteRam idx _ => idx != 0
  | .ctlPulseOutput mask => mask == 0b1110
  | .respAck => cfg.overrunCode != 0xFA
  | .respResend => cfg.overrunCode != 0xFE
  | .respEchoReply => cfg.overrunCode != 0xEE
  | .respBatOk => cfg.overrunCode != 0xAA
  | .respBatFail => cfg.overrunCode != 0xFC
  | .readStatus | .startInit | .setTranslation _ | .selfTest | .keyboardInterfaceTest
  | .auxInterfaceTest | .ramRead _ | .ramWrite _ _ | .cpuReset | .enableDevices _
  | .enableDevicesAndInterrupts _ | .sendToKeyboard _ | .sendToAuxiliaryDevice _ | .pollData
  | .disableDevices | .kbdReceive _ | .kbdDisable | .kbdSetDefaults | .kbdEnable | .kbdSetLeds _
  | .kbdSetTypematic _ | .kbdSelectScancodeSet _ | .kbdReadId | .kbdEcho
  | .ctlReadCommandByte | .ctlWriteCommandByte _ | .ctlDisableAux | .ctlEnableAux | .ctlAuxTest
  | .ctlSelfTest | .ctlKbdTest | .ctlDisableKbd | .ctlEnableKbd | .ctlWriteToAux _
  | .devSetIndicators _ | .devEcho | .devSelectScancodeSet _ | .devReadId | .devSetTypematic _
  | .devEnable | .devDisable | .devSetDefaults
  | .respKeyDetectionOverrun | .respSelfTestPassed | .respInterfaceTestPassed | .respClockLineLow
  | .respClockLineHigh | .respDataLineLow | .respDataLineHigh => true

end Sys2Proof
end

