-- ==== Sys2Proof/Decode.lean ====
section
/-! DEFINITION. The decoder, total on every word of every interface and rejecting by name, and after
it the encoder, both written from the tables of 30_encoding.md (R91, R92, R95 to R97, R99, R100,
R102). -/

namespace Sys2Proof

/-- The operation code of a request, bits 23:16 (R91). -/
def requestOp (w : RequestWord) : Byte := w.extractLsb' 16 8

/-- The first operand of a request, bits 15:8 (R91). -/
def requestArg0 (w : RequestWord) : Byte := w.extractLsb' 8 8

/-- The second operand of a request, bits 7:0 (R91). -/
def requestArg1 (w : RequestWord) : Byte := w.extractLsb' 0 8

/-- The 24-bit word of an operation code and its two operand bytes (R91). -/
def requestWord (op arg0 arg1 : Byte) : RequestWord := op ++ arg0 ++ arg1

/-- A host request (R92): `op` selects the operation, operand bits it does not use are ignored
(R91). -/
def decodeRequest (w : RequestWord) : Except DecodeReject Instr :=
  let a := requestArg0 w
  match (requestOp w).toNat with
  | 0x00 => .ok .readStatus
  | 0x01 => .ok .startInit
  | 0x10 => .ok (.setTranslation (a.getLsbD 0))
  | 0x11 => .ok .selfTest
  | 0x12 => .ok .keyboardInterfaceTest
  | 0x13 => .ok .auxInterfaceTest
  | 0x14 => .ok (.ramRead (a.extractLsb' 0 5))
  | 0x15 => .ok (.ramWrite (a.extractLsb' 0 5) (requestArg1 w))
  | 0x16 => .ok .cpuReset
  | 0x17 => .ok (.enableDevices (a.extractLsb' 0 2))
  | 0x18 => .ok (.enableDevicesAndInterrupts (a.extractLsb' 0 2))
  | 0x20 => .ok (.sendToKeyboard a)
  | 0x21 => .ok (.sendToAuxiliaryDevice a)
  | 0x22 => .ok .pollData
  | 0x23 => .ok .disableDevices
  | 0x30 => .ok (.kbdReceive a)
  | 0x31 => .ok .kbdDisable
  | 0x32 => .ok .kbdSetDefaults
  | 0x33 => .ok .kbdEnable
  | 0x34 => .ok (.kbdSetLeds a)
  | 0x35 => .ok (.kbdSetTypematic a)
  | 0x36 => .ok (.kbdSelectScancodeSet a)
  | 0x37 => .ok .kbdReadId
  | 0x38 => .ok .kbdEcho
  | _ => .error .unknownOperation

/-- A controller command (R95). The RAM commands hold their index in bits 4:0, index 0 being the
command byte's own command (R96); the pulse commands hold their mask in bits 3:0 (R97). -/
def decodeControllerCommand (b param : Byte) : Except DecodeReject Instr :=
  if b.extractLsb' 5 3 = (0b001 : BitVec 3) then
    if b.extractLsb' 0 5 = (0 : BitVec 5) then .ok .ctlReadCommandByte
    else .ok (.ctlReadRam (b.extractLsb' 0 5))
  else if b.extractLsb' 5 3 = (0b011 : BitVec 3) then
    if b.extractLsb' 0 5 = (0 : BitVec 5) then .ok (.ctlWriteCommandByte param)
    else .ok (.ctlWriteRam (b.extractLsb' 0 5) param)
  else if b.extractLsb' 4 4 = (0b1111 : BitVec 4) then
    .ok (.ctlPulseOutput (b.extractLsb' 0 4))
  else
    match b.toNat with
    | 0xA7 => .ok .ctlDisableAux
    | 0xA8 => .ok .ctlEnableAux
    | 0xA9 => .ok .ctlAuxTest
    | 0xAA => .ok .ctlSelfTest
    | 0xAB => .ok .ctlKbdTest
    | 0xAD => .ok .ctlDisableKbd
    | 0xAE => .ok .ctlEnableKbd
    | 0xD4 => .ok (.ctlWriteToAux param)
    | _ => .error (.notAControllerCommand b)

/-- A device command (R100); the payload byte belongs to the three commands that have one (R101). -/
def decodeDeviceCommand (b payload : Byte) : Except DecodeReject Instr :=
  match b.toNat with
  | 0xED => .ok (.devSetIndicators payload)
  | 0xEE => .ok .devEcho
  | 0xF0 => .ok (.devSelectScancodeSet payload)
  | 0xF2 => .ok .devReadId
  | 0xF3 => .ok (.devSetTypematic payload)
  | 0xF4 => .ok .devEnable
  | 0xF5 => .ok .devDisable
  | 0xF6 => .ok .devSetDefaults
  | _ => .error (.notADeviceCommand b)

/-- A byte read as keyboard data (R102). The overrun code is tested first, as the session does
(44_keyboard_session.md R251). -/
def decodeKeyboardByte (cfg : Config) (b : Byte) : Except DecodeReject Instr :=
  if b = cfg.overrunCode then .ok .respKeyDetectionOverrun
  else
    match b.toNat with
    | 0xFC => .ok .respBatFail
    | 0xAA => .ok .respBatOk
    | 0xFA => .ok .respAck
    | 0xFE => .ok .respResend
    | 0xEE => .ok .respEchoReply
    | _ => .error (.plainKeyboardByte b)

/-- A byte read in answer to a controller command (R99): 0x55 means a pass after `SELF_TEST` only,
0x00 to 0x04 have their meanings after the two interface tests only. -/
def decodeControllerResponse (after b : Byte) : Except DecodeReject Instr :=
  if after = 0xAA then
    if b = 0x55 then .ok .respSelfTestPassed else .error (.plainResponse b)
  else if after = 0xAB ∨ after = 0xA9 then
    match b.toNat with
    | 0x00 => .ok .respInterfaceTestPassed
    | 0x01 => .ok .respClockLineLow
    | 0x02 => .ok .respClockLineHigh
    | 0x03 => .ok .respDataLineLow
    | 0x04 => .ok .respDataLineHigh
    | _ => .error (.plainResponse b)
  else .error (.plainResponse b)

/-- The decoder: by interface first, then by value (R104). -/
def decode (cfg : Config) : Presented → Except DecodeReject Instr
  | .request w => decodeRequest w
  | .controllerCommand b param => decodeControllerCommand b param
  | .deviceCommand b payload => decodeDeviceCommand b payload
  | .keyboardByte b => decodeKeyboardByte cfg b
  | .controllerResponse after b => decodeControllerResponse after b

/-- The interface at which a bare 8-bit row value is placed when its interface is not said
(`decodeTableWord`, `withFetchWord`). R104 makes such a value ambiguous, so one meaning is chosen:
keyboard data, then device commands, then interface-test and self-test responses, then controller
commands, except that 0xAA is `SELF_TEST`, 0xEE is `ECHO` and 0x00 is a passed interface test.
DESIGN CHOICE (log 8), safe: nothing but these two definitions uses it. -/
def tableInterface (b second : Byte) : Presented :=
  match b.toNat with
  | 0xFA | 0xFE | 0xFC => .keyboardByte b
  | 0xED | 0xEE | 0xF0 | 0xF2 | 0xF3 | 0xF4 | 0xF5 | 0xF6 => .deviceCommand b second
  | 0x00 | 0x01 | 0x02 | 0x03 | 0x04 => .controllerResponse 0xAB b
  | 0x55 => .controllerResponse 0xAA b
  | _ => .controllerCommand b second

/-- A row's bits as the word at its interface: 24 bits are a request, 8 bits (with a second byte
above them, zero where the table gives none) stand at the interface of `tableInterface`. -/
def tableWord (nbits w : Nat) : Presented :=
  if nbits = 24 then .request (BitVec.ofNat 24 w)
  else tableInterface (BitVec.ofNat 8 w) (BitVec.ofNat 8 (w / 256))

/-- What the decoder reads from an instruction whose bits are `w`, numbered as the opcode table
numbers them. -/
def decodeTableWord (nbits w : Nat) : Option Instr :=
  match decode Config.documented (tableWord nbits w) with
  | .ok i => some i
  | .error _ => none

/-- `READ_RAM(idx)`, 0x20 + idx (R96). -/
def readRamByte (idx : BitVec 5) : Byte := 0x20 + idx.zeroExtend 8

/-- `WRITE_RAM(idx)`, 0x60 + idx (R96). -/
def writeRamByte (idx : BitVec 5) : Byte := 0x60 + idx.zeroExtend 8

/-- `PULSE_OUTPUT(mask)`, 0xF0 | mask (R97). -/
def pulseOutputByte (mask : BitVec 4) : Byte := 0xF0 ||| mask.zeroExtend 8

/-- The encoder: the word of each instruction, unused fields zero (R106). -/
def encode (cfg : Config) : Instr → Presented
  | .readStatus => .request (requestWord 0x00 0 0)
  | .startInit => .request (requestWord 0x01 0 0)
  | .setTranslation en => .request (requestWord 0x10 (if en then 1 else 0) 0)
  | .selfTest => .request (requestWord 0x11 0 0)
  | .keyboardInterfaceTest => .request (requestWord 0x12 0 0)
  | .auxInterfaceTest => .request (requestWord 0x13 0 0)
  | .ramRead idx => .request (requestWord 0x14 (idx.zeroExtend 8) 0)
  | .ramWrite idx v => .request (requestWord 0x15 (idx.zeroExtend 8) v)
  | .cpuReset => .request (requestWord 0x16 0 0)
  | .enableDevices sel => .request (requestWord 0x17 (sel.zeroExtend 8) 0)
  | .enableDevicesAndInterrupts sel => .request (requestWord 0x18 (sel.zeroExtend 8) 0)
  | .sendToKeyboard b => .request (requestWord 0x20 b 0)
  | .sendToAuxiliaryDevice b => .request (requestWord 0x21 b 0)
  | .pollData => .request (requestWord 0x22 0 0)
  | .disableDevices => .request (requestWord 0x23 0 0)
  | .kbdReceive b => .request (requestWord 0x30 b 0)
  | .kbdDisable => .request (requestWord 0x31 0 0)
  | .kbdSetDefaults => .request (requestWord 0x32 0 0)
  | .kbdEnable => .request (requestWord 0x33 0 0)
  | .kbdSetLeds leds => .request (requestWord 0x34 leds 0)
  | .kbdSetTypematic rate => .request (requestWord 0x35 rate 0)
  | .kbdSelectScancodeSet n => .request (requestWord 0x36 n 0)
  | .kbdReadId => .request (requestWord 0x37 0 0)
  | .kbdEcho => .request (requestWord 0x38 0 0)
  | .ctlReadCommandByte => .controllerCommand 0x20 0
  | .ctlReadRam idx => .controllerCommand (readRamByte idx) 0
  | .ctlWriteCommandByte d => .controllerCommand 0x60 d
  | .ctlWriteRam idx d => .controllerCommand (writeRamByte idx) d
  | .ctlDisableAux => .controllerCommand 0xA7 0
  | .ctlEnableAux => .controllerCommand 0xA8 0
  | .ctlAuxTest => .controllerCommand 0xA9 0
  | .ctlSelfTest => .controllerCommand 0xAA 0
  | .ctlKbdTest => .controllerCommand 0xAB 0
  | .ctlDisableKbd => .controllerCommand 0xAD 0
  | .ctlEnableKbd => .controllerCommand 0xAE 0
  | .ctlWriteToAux d => .controllerCommand 0xD4 d
  | .ctlPulseOutput mask => .controllerCommand (pulseOutputByte mask) 0
  | .devSetIndicators payload => .deviceCommand 0xED payload
  | .devEcho => .deviceCommand 0xEE 0
  | .devSelectScancodeSet payload => .deviceCommand 0xF0 payload
  | .devReadId => .deviceCommand 0xF2 0
  | .devSetTypematic payload => .deviceCommand 0xF3 payload
  | .devEnable => .deviceCommand 0xF4 0
  | .devDisable => .deviceCommand 0xF5 0
  | .devSetDefaults => .deviceCommand 0xF6 0
  | .respAck => .keyboardByte 0xFA
  | .respResend => .keyboardByte 0xFE
  | .respEchoReply => .keyboardByte 0xEE
  | .respBatOk => .keyboardByte 0xAA
  | .respBatFail => .keyboardByte 0xFC
  | .respKeyDetectionOverrun => .keyboardByte cfg.overrunCode
  | .respSelfTestPassed => .controllerResponse 0xAA 0x55
  | .respInterfaceTestPassed => .controllerResponse 0xAB 0x00
  | .respClockLineLow => .controllerResponse 0xAB 0x01
  | .respClockLineHigh => .controllerResponse 0xAB 0x02
  | .respDataLineLow => .controllerResponse 0xAB 0x03
  | .respDataLineHigh => .controllerResponse 0xAB 0x04

end Sys2Proof
end

