-- ==== Sys2Proof/Machine/State.lean ====
section
/-! DEFINITION. The state of the block and of what it exchanges bytes with, as plain data
(10_state.md), the results an operation returns (60_exceptions.md, 44_keyboard_session.md), and the
state right after reset. -/

namespace Sys2Proof.Machine

/-- `ctl.state`, the live protocol state (10_state.md R21). -/
inductive ProtocolState where
  | initController
  | devicesDisabled
  | enabledDevices
  deriving DecidableEq, Repr

/-- `ks.marker` (R37). -/
inductive Marker where
  | disabled
  | enabled
  deriving DecidableEq, Repr

/-- The six command shapes (R33). -/
inductive Variant where
  | ackResponse
  | echo
  | ackResponseWithReturnTwoBytes
  | sendCommandAndData
  | sendCommandAndDataSingleAck
  | sendCommandAndDataAndReceiveResponse
  deriving DecidableEq, Repr

/-- Where a command stands in its handshake (R33). -/
inductive Cursor where
  | waitAck
  | waitEcho
  | waitByte1
  | waitByte2
  | waitAck1
  | waitAck2
  | waitFollowing
  | waitResponse
  deriving DecidableEq, Repr

/-- A `Command` record (R32). -/
structure Command where
  variant : Variant
  cmd : Byte
  data : Byte
  cur : Cursor
  r1 : Byte
  r2 : Byte
  deriving DecidableEq, Repr

/-- The selector of an enabling transition (00_scope.md R16, 10_state.md R22). -/
inductive EnableDevice where
  | keyboard
  | auxiliary
  | both
  deriving DecidableEq, Repr

/-- Whose byte waits in the 8042's output buffer (40_status_decoder.md R123). -/
inductive Owner where
  | keyboardOrCommandController
  | auxiliaryDevice
  deriving DecidableEq, Repr

/-- The `parity` field of a decoded status byte (R121). -/
inductive Parity where
  | ok
  | err
  deriving DecidableEq, Repr

/-- `StatusInfo`, the decoded status byte (R120). -/
structure StatusInfo where
  parity : Parity
  timeout : Bool
  data : Option Owner
  password : Bool
  systemFlag : Bool
  inputFull : Bool
  deriving DecidableEq, Repr

/-- The two device interfaces that can be tested (42_controller_fsm.md R156, R157). -/
inductive TestedInterface where
  | keyboard
  | auxiliary
  deriving DecidableEq, Repr

/-- The closed error set of the interface tests (R155). -/
inductive InterfaceFault where
  | clockLineLow
  | clockLineHigh
  | dataLineLow
  | dataLineHigh
  | unknownValue (b : Byte)
  deriving DecidableEq, Repr

/-- The keyboard events of a finished exchange (44_keyboard_session.md R237). -/
inductive KbdEvent where
  | key (ev : Nat)
  | batCompleted
  | id (b1 b2 : Byte)
  | scancodeSet (b : Byte)
  | echoReceived
  deriving DecidableEq, Repr

/-- The errors an operation can return (60_exceptions.md R271). They are results, not stops: the
operation has ended and the machine goes on (R270). -/
inductive Err where
  | wrongState
  | badOperand
  | unknownOperation
  /-- `InterfaceError.Keyboard(e)` or `InterfaceError.Auxiliary(e)`, with the raw byte recorded. -/
  | interfaceError (which : TestedInterface) (raw : Byte) (e : InterfaceFault)
  | selfTestFailed (r : Byte)
  | deviceNotEnabled
  | queueFull
  /-- `QueueFull(command)`, what `q_add` itself answers (43_command_queue.md R191). -/
  | queueFullCommand (c : Command)
  | keyDetectionOverrun
  | batFailed
  | decode (e : Nat)
  deriving DecidableEq, Repr

/-- The payload of an `Ok` result (30_encoding.md R94). -/
inductive OkValue where
  | unit
  | status (i : StatusInfo)
  | byte (b : Byte)
  | noData
  | data (owner : Owner) (b : Byte)
  | noEvent
  | event (e : KbdEvent)
  deriving DecidableEq, Repr

/-- What `q_receive` returns to the session that calls it (43_command_queue.md R211). -/
inductive QueueStatus where
  | commandInProgress
  | commandFinished (c : Command)
  | unexpectedData (b : Byte)
  deriving DecidableEq, Repr

/-- The result of an operation: `Ok(v)` or `Err(e)` (00_scope.md R13). -/
inductive Result where
  | ok (v : OkValue)
  | err (e : Err)
  deriving DecidableEq, Repr

/-- One port transaction (00_scope.md R15). -/
inductive Txn where
  | readStatus (b : Byte)
  | readData (b : Byte)
  | writeCommand (b : Byte)
  | writeData (b : Byte)
  deriving DecidableEq, Repr

/-- One step of a micro-sequence: one port transaction or one register update (92 D1). A poll is one
pass of its loop and stays at its place until its condition holds (00_scope.md R14). -/
inductive Micro where
  /-- One pass of `WaitInputEmpty` (41_port_handshake.md R135). -/
  | pollInput
  /-- `PortWrite(COMMAND, c)`. -/
  | writeCommand (c : Byte)
  /-- `PortWrite(DATA, d)`. -/
  | writeData (d : Byte)
  /-- `PortWrite(DATA, ctl.cb)`, the write of `WriteCB(ctl.cb)` (42_controller_fsm.md R152). -/
  | writeDataCb
  /-- `PortWrite(DATA, ctl.saved)`, the write of `WriteCB(ctl.saved)` (R154). -/
  | writeDataSaved
  /-- Step 1 of `DiscardStale` (R140). -/
  | pollStale
  /-- Step 2 of `DiscardStale`: the data read whose byte is thrown away (R140). -/
  | dropStale
  /-- One status pass of `WaitCtlData` after the command `after` (R141). -/
  | pollResponse (after : Byte)
  /-- The data read of `WaitCtlData` after the command `after`, and `ctl.resp <- r` (R139, R141). -/
  | takeResponse (after : Byte)
  /-- `ctl.cb <- ReadCB()`, its assignment (R151 step 3). -/
  | cbFromResp
  /-- `ctl.saved <- ReadCB()`, its assignment (R154 step 1). -/
  | savedFromResp
  /-- `ctl.cb <- ctl.cb & 0xFC` (R151 step 4). -/
  | cbClearInterrupts
  /-- `ctl.cb <- (ctl.cb & 0xBF) | (en << 6)` (R153 step 2). -/
  | cbSetTranslate (en : Bool)
  /-- The interrupt-enable bits of the selected devices set in `ctl.cb` (R161 step 5). -/
  | cbSetInterrupts (d : EnableDevice)
  /-- Return `Err(InterfaceError)` unless `InterfaceTestMap(ctl.resp)` is a pass (R156, R157, R161). -/
  | judgeTest (which : TestedInterface)
  /-- Return `Ok` or `Err(SelfTestFailed(r))` (R154 step 4). -/
  | judgeSelfTest
  /-- Return `Ok(r)` with the response byte (R158 step 3). -/
  | returnResponse
  /-- The last step of a sequence that ends in `DevicesDisabled` (R151 step 6, R171). -/
  | enterDisabled
  /-- The last step of an enabling transition (R161 step 6). -/
  | enterEnabled (d : EnableDevice) (irq : Bool)
  /-- The status read of `read_status` and its return (40_status_decoder.md R128). -/
  | reportStatus
  /-- The status read of `poll_data` (R170 step 1). -/
  | pollOwner
  /-- The data read of `poll_data` and its return (R170 step 2). -/
  | takeOwned (owner : Owner)
  /-- `q_add(c)` (43_command_queue.md R191). -/
  | queueAdd (c : Command)
  /-- The in-flight command's new cursor and captured bytes (R194 step 3). -/
  | setInflight (c : Command)
  /-- Step 1 of `Finish` (R208). -/
  | finishCommand
  /-- `ks.marker <- m` (44_keyboard_session.md R241). -/
  | setMarker (m : Marker)
  /-- `DecoderReset()` (R233). -/
  | resetDecoder
  /-- Return `ToEvent(Decode(b))` (R231). -/
  | decodeByte (b : Byte)
  /-- Return a result. -/
  | ret (r : Result)
  deriving DecidableEq, Repr

/-- `ctl.upc` (10_state.md R25): idle, or the operation running (none for a byte that is no
instruction) and the steps of its micro-sequence still to do, the primitives expanded in place. -/
inductive Upc where
  | idle
  | running (op : Option Instr) (rest : List Micro)
  deriving DecidableEq, Repr

/-- The controller FSM's registers (R20 to R25). -/
structure Ctl where
  state : ProtocolState
  sel : BitVec 2
  irq : Bool
  cb : Byte
  saved : Byte
  resp : Byte
  upc : Upc
  deriving DecidableEq, Repr

/-- The command queue (R34). -/
structure Queue where
  fifo : List Command
  inflight : Option Command
  deriving DecidableEq, Repr

/-- The keyboard session (R37). -/
structure Session where
  marker : Marker
  deriving DecidableEq, Repr

/-- A byte store over an index space: address and byte pairs, addresses strictly rising. An address
that is not listed holds nothing the block has stored (log 10). -/
abbrev Memory := List Host.Cell

/-- The environment as the block meets it at its ports (R28 to R31, 20_memory.md R60 to R63). The
answers to port reads are free inputs (92 D42); the rest records what the block's writes deliver and
constrains no answer (log 10). -/
structure Env where
  /-- The bytes the coming port reads are answered with, in order (log 5). -/
  answers : List Byte
  /-- The port transactions made, oldest first (00_scope.md R15). -/
  trace : List Txn
  /-- The parameter command whose data byte has not been written yet (20_memory.md R63). -/
  pending : Option Byte
  /-- The controller RAM index space: what the block last stored at each index, index 0 being the
  8042 command byte (R29, R30, R62). -/
  ram : Memory
  /-- The bytes delivered to the keyboard, oldest first (R63). -/
  kbdSent : List Byte
  /-- The bytes delivered to the auxiliary device, oldest first (R63). -/
  auxSent : List Byte
  deriving DecidableEq, Repr

/-- The host interface (00_scope.md R7, R8, R13; 70_reset_and_hazards.md R300). -/
structure HostPort where
  /-- The words presented and not yet accepted, oldest first (log 7). -/
  presented : List Presented
  /-- The result of the last operation that returned; none while one runs (log 18). -/
  result : Option Result
  /-- The reset input (log 16). -/
  resetLine : Bool
  deriving DecidableEq, Repr

/-- The machine: the block, its parameters, and what stands at its interfaces. -/
structure State where
  /-- The parameters (00_scope.md R9); no step changes them (log 1). -/
  cfg : Config
  ctl : Ctl
  q : Queue
  ks : Session
  env : Env
  host : HostPort
  /-- The external scancode decoder (10_state.md R38, 44_keyboard_session.md R231). -/
  decoder : DecoderState
  /-- The model's own counter of free values (log 3). -/
  freeCount : Nat
  /-- The model's own bound on one step: `some n` at most `n + 1` micro-steps, `none` as far as the
  answers allow. With `some 0` a step of a running block is one port transaction or one register update
  (00_scope.md R6). No step changes it (log 6). -/
  grain : Option Nat
  deriving DecidableEq, Repr

/-- The block has no faults: every error is a result (60_exceptions.md R270), and an operation that
never ends is a suspended `ctl.upc` (R289). Nothing raises one (log 19). -/
inductive Fault where
  deriving DecidableEq, Repr

/-- Why a word is given no meaning. -/
inductive Refusal where
  /-- An instruction that has no meaning yet; raised by an arm of `exec` only. Safe. -/
  | notModelled (mnemonic : String)
  /-- `PULSE_OUTPUT` with a mask other than 0b1110, which the block never emits (30_encoding.md R97,
  R105(b), 93 U5(a): "cannot occur; a model has no case for them"); raised by that instruction. Safe:
  the model stops where the block cannot be (log 13). -/
  | pulsePatternNeverEmitted (mask : BitVec 4)
  /-- A byte presented as a controller command that is none (30_encoding.md R105(b), 93 U5(a));
  raised by `step`. Safe: no host request leads to one (log 24). -/
  | notAControllerCommand (b : Byte)
  /-- A byte presented as a device command that is none (30_encoding.md R105(c)); raised by `step`.
  Safe: no host request leads to one (log 24). -/
  | notADeviceCommand (b : Byte)
  deriving DecidableEq, Repr

/-- The machine right after reset (10_state.md R40, 70_reset_and_hazards.md R301). `cb`, `saved` and
`resp` are unspecified there and hold 0, DESIGN CHOICE (log 2), unsafe. Nothing is presented, no
answer is listed and no transaction has been made; a step is one micro-step (R6, log 6). -/
def State.reset : State :=
  { cfg := Config.documented
    ctl :=
      { state := .initController, sel := 0, irq := false, cb := 0, saved := 0, resp := 0,
        upc := .idle }
    q := { fifo := [], inflight := none }
    ks := { marker := .enabled }
    env := { answers := [], trace := [], pending := none, ram := [], kbdSent := [], auxSent := [] }
    host := { presented := [], result := none, resetLine := false }
    decoder := { table := .set2, progress := 0 }
    freeCount := 0
    grain := some 0 }

end Sys2Proof.Machine
end

