-- ==== Sys2Proof/Machine/Flags.lean ====
section
/-! DEFINITION. What the block reads out of a byte it received: the status register decoder
(40_status_decoder.md), the interface-test result map (42_controller_fsm.md R155), and the codes of
errors and keyboard events (60_exceptions.md R271, 44_keyboard_session.md R237). -/

namespace Sys2Proof.Machine

/-- Data availability and ownership: bit 5 decides for the auxiliary device whatever bit 0 is
(40_status_decoder.md R123). -/
def statusOwner (s : Byte) : Option Owner :=
  if s.getLsbD 5 then some .auxiliaryDevice
  else if s.getLsbD 0 then some .keyboardOrCommandController
  else none

/-- `DecodeStatus(s)` (R120 to R127); `level` is `PASSWORD_ACTIVE_LEVEL`. Bit 3 is not decoded. -/
def decodeStatus (level : Bool) (s : Byte) : StatusInfo :=
  { parity := if s.getLsbD 7 then .err else .ok
    timeout := s.getLsbD 6
    data := statusOwner s
    password := s.getLsbD 4 == level
    systemFlag := s.getLsbD 2
    inputFull := s.getLsbD 1 }

/-- `InterfaceTestMap(r)` (42_controller_fsm.md R155); `none` is a pass. -/
def interfaceTestMap (r : Byte) : Option InterfaceFault :=
  match r.toNat with
  | 0x00 => none
  | 0x01 => some .clockLineLow
  | 0x02 => some .clockLineHigh
  | 0x03 => some .dataLineLow
  | 0x04 => some .dataLineHigh
  | _ => some (.unknownValue r)

/-- The code of an error (60_exceptions.md R271). -/
def errorCode : Err → Byte
  | .wrongState => 0x01
  | .badOperand => 0x02
  | .unknownOperation => 0x03
  | .interfaceError .keyboard _ _ => 0x10
  | .interfaceError .auxiliary _ _ => 0x11
  | .selfTestFailed _ => 0x12
  | .deviceNotEnabled => 0x20
  | .queueFull => 0x30
  | .queueFullCommand _ => 0x30
  | .keyDetectionOverrun => 0x40
  | .batFailed => 0x41
  | .decode _ => 0x42

/-- The code of a keyboard event, `Ok(None)` being 0x00 (44_keyboard_session.md R237). -/
def eventCode : Option KbdEvent → Byte
  | none => 0x00
  | some (.key _) => 0x01
  | some .batCompleted => 0x02
  | some (.id _ _) => 0x03
  | some (.scancodeSet _) => 0x04
  | some .echoReceived => 0x05

end Sys2Proof.Machine
end

