-- ==== Sys2Proof/Machine/Operands.lean ====
section
/-! DEFINITION. The operand forms of the host operations: the selector, the ranges an operand must
lie in (60_exceptions.md R274), and the bytes that carry a fixed meaning (30_encoding.md R99,
R102). -/

namespace Sys2Proof.Machine

/-- The selector operand (30_encoding.md R93); 0b00 selects no device. -/
def selectorOf (sel : BitVec 2) : Option EnableDevice :=
  match sel.toNat with
  | 0b01 => some .keyboard
  | 0b10 => some .auxiliary
  | 0b11 => some .both
  | _ => none

/-- The value of `ctl.sel` for a selector (10_state.md R22). -/
def selectorMask : EnableDevice → BitVec 2
  | .keyboard => 0b01
  | .auxiliary => 0b10
  | .both => 0b11

/-- The selector applies to the keyboard: `sel[0] = 1`. -/
def hasKeyboard : EnableDevice → Bool
  | .keyboard => true
  | .auxiliary => false
  | .both => true

/-- The selector applies to the auxiliary device: `sel[1] = 1`. -/
def hasAuxiliary : EnableDevice → Bool
  | .keyboard => false
  | .auxiliary => true
  | .both => true

/-- The interrupt-enable bits of the selected devices: bit 0 keyboard, bit 1 auxiliary
(42_controller_fsm.md R161 step 5, 10_state.md R29). -/
def interruptBits (d : EnableDevice) : Byte :=
  (if hasKeyboard d then 0x01 else 0x00) ||| (if hasAuxiliary d then 0x02 else 0x00)

/-- `ctl.cb` with `TRANSLATE` (bit 6) set to `en` (42_controller_fsm.md R153). -/
def withTranslate (cb : Byte) (en : Bool) : Byte :=
  (cb &&& 0xBF) ||| (if en then 0x40 else 0x00)

/-- The legal range of a typematic rate: bit 7 clear (44_keyboard_session.md R246). -/
def typematicLegal (rate : Byte) : Bool := !rate.getLsbD 7

/-- The legal scancode sets: 1, 2, 3 (R247). -/
def scancodeSetLegal (n : Byte) : Bool := n == 1 || n == 2 || n == 3

/-- `ACK` (30_encoding.md R102). -/
def byteAck : Byte := 0xFA

/-- `RESEND` (R102). -/
def byteResend : Byte := 0xFE

/-- `ECHO_REPLY` (R102). -/
def byteEchoReply : Byte := 0xEE

/-- `BAT_OK` (R102). -/
def byteBatOk : Byte := 0xAA

/-- `BAT_FAIL` (R102). -/
def byteBatFail : Byte := 0xFC

/-- The response of a passed self-test (R99). -/
def byteSelfTestPassed : Byte := 0x55

/-- A controller command of the parameter class: 0x60 to 0x7F and 0xD4 (R95, R98). -/
def takesParameter (c : Byte) : Bool :=
  c.extractLsb' 5 3 == (0b011 : BitVec 3) || c == 0xD4

/-- The controller RAM index of a RAM command, bits 4:0 (20_memory.md R62, R96). -/
def ramIndexOf (c : Byte) : Nat := (c.extractLsb' 0 5).toNat

end Sys2Proof.Machine
end

