-- ==== Sys2Proof/Machine/Ops.lean ====
section
/-! DEFINITION. The shared operations: the RAM index space, the port transactions and what a write
delivers (20_memory.md R61 to R63), one step of a micro-sequence, running a sequence (10_state.md
R25), accepting a request (00_scope.md R8), returning a result or an error (60_exceptions.md R283),
and the reset of the block (10_state.md R40). -/

namespace Sys2Proof.Machine

/-- The byte stored at an index, if the block has stored one there. -/
def Memory.read : Memory → Nat → Option Byte
  | [], _ => none
  | (k, v) :: m, a => if k = a then some v else Memory.read m a

/-- Store a byte, keeping the addresses strictly rising. -/
def Memory.write : Memory → Nat → Byte → Memory
  | [], a, b => [(a, b)]
  | (k, v) :: m, a, b =>
    if a < k then (a, b) :: (k, v) :: m
    else if a = k then (a, b) :: m
    else (k, v) :: Memory.write m a b

/-- The canonical form from an address on: strictly rising, inside the 32 indices of the controller
RAM (20_memory.md R62). -/
def Memory.wfFrom : Nat → Memory → Bool
  | _, [] => true
  | lo, (k, _) :: m => decide (lo ≤ k) && decide (k < 32) && Memory.wfFrom (k + 1) m

/-- The canonical form: equal contents are equal lists. -/
def Memory.wf (m : Memory) : Bool := Memory.wfFrom 0 m

/-- Go on at the rest of the running sequence. -/
def State.continueAt (s : State) (op : Option Instr) (rest : List Micro) : State :=
  { s with ctl := { s.ctl with upc := .running op rest } }

/-- Return a result (00_scope.md R13). `return Err(e)` is the same step with an error: nothing is
saved, no mode changes, control goes nowhere (60_exceptions.md R283). -/
def State.returns (s : State) (r : Result) : State :=
  { s with ctl := { s.ctl with upc := .idle }, host := { s.host with result := some r } }

/-- One status port read answered with `b`, the first of the listed answers. -/
def State.readsStatus (s : State) (b : Byte) (rest : List Byte) : State :=
  { s with env := { s.env with answers := rest, trace := s.env.trace ++ [.readStatus b] } }

/-- One data port read answered with `b`, the first of the listed answers. -/
def State.readsData (s : State) (b : Byte) (rest : List Byte) : State :=
  { s with env := { s.env with answers := rest, trace := s.env.trace ++ [.readData b] } }

/-- `PortWrite(COMMAND, c)`: the 8042 takes a controller command; one of the parameter class awaits
its byte on the data port (20_memory.md R61, R63; 30_encoding.md R98). -/
def State.writesCommand (s : State) (c : Byte) : State :=
  { s with
    env := { s.env with
      trace := s.env.trace ++ [.writeCommand c]
      pending := if takesParameter c then some c else none } }

/-- `PortWrite(DATA, d)`: the byte is the parameter of the command just written (to the auxiliary
device after 0xD4, to a RAM index after 0x60 + i), and otherwise goes to the keyboard
(20_memory.md R62, R63). -/
def State.writesData (s : State) (d : Byte) : State :=
  match s.env.pending with
  | none =>
    { s with
      env := { s.env with
        trace := s.env.trace ++ [.writeData d], kbdSent := s.env.kbdSent ++ [d] } }
  | some c =>
    if c = 0xD4 then
      { s with
        env := { s.env with
          trace := s.env.trace ++ [.writeData d], pending := none
          auxSent := s.env.auxSent ++ [d] } }
    else
      { s with
        env := { s.env with
          trace := s.env.trace ++ [.writeData d], pending := none
          ram := Memory.write s.env.ram (ramIndexOf c) d } }

/-- `CtlCmd(c)` (41_port_handshake.md R137). -/
def ctlCmd (c : Byte) : List Micro := [.pollInput, .writeCommand c, .pollInput]

/-- `CtlCmdData(c, d)` (R138). -/
def ctlCmdData (c d : Byte) : List Micro := ctlCmd c ++ [.writeData d]

/-- `DiscardStale()` (R140). -/
def discardStale : List Micro := [.pollStale]

/-- `WaitCtlData()` after the command `c`, and the assignment of `ctl.resp` (R141, R139 step 4). -/
def waitCtlData (c : Byte) : List Micro := [.pollResponse c, .takeResponse c]

/-- `CtlCmdResp(c)` (R139). -/
def ctlCmdResp (c : Byte) : List Micro := discardStale ++ ctlCmd c ++ waitCtlData c

/-- `DevWriteKbd(b)` (R142), and the queue's `DevWrite(b)` (43_command_queue.md R212). -/
def devWriteKbd (b : Byte) : List Micro := [.pollInput, .writeData b]

/-- `DevWriteAux(b)` (R145). -/
def devWriteAux (b : Byte) : List Micro := ctlCmdData 0xD4 b

/-- `ctl.cb <- ReadCB()` (42_controller_fsm.md R152). -/
def readCbToCb : List Micro := ctlCmdResp 0x20 ++ [.cbFromResp]

/-- `WriteCB(ctl.cb)` (R152). -/
def writeCb : List Micro := ctlCmd 0x60 ++ [.writeDataCb]

/-- The first cursor of a variant (10_state.md R33). -/
def firstCursor : Variant → Cursor
  | .ackResponse => .waitAck
  | .echo => .waitEcho
  | .ackResponseWithReturnTwoBytes => .waitAck
  | .sendCommandAndData => .waitAck1
  | .sendCommandAndDataSingleAck => .waitAck1
  | .sendCommandAndDataAndReceiveResponse => .waitAck1

/-- The FIFO is full (43_command_queue.md R191 step 1). -/
abbrev State.queueFull (s : State) : Prop := s.q.fifo.length = s.cfg.queueCapacity

/-- Take the front of the FIFO, if there is one, and `Start` it: its cursor, the in-flight slot, and
the write of its command byte, in that order (R192, R208 step 1). -/
def State.startFront (s : State) (op : Option Instr) (rest : List Micro) : State :=
  match s.q.fifo with
  | [] => ({ s with q := { s.q with inflight := none } }).continueAt op rest
  | c :: fifo =>
    ({ s with
        q := { fifo := fifo, inflight := some { c with cur := firstCursor c.variant } } }).continueAt
      op (devWriteKbd c.cmd ++ rest)

/-- `ToEvent(x)` (44_keyboard_session.md R231). -/
def toEvent : DecodeResult → Result
  | .noEvent => .ok .noEvent
  | .key ev => .ok (.event (.key ev))
  | .failed e => .err (.decode e)

/-- One micro-step at the head `m` of the running sequence, `rest` being what follows it: one port
transaction or one register update (92 D1). `none` where the step is a port read and no answer is
listed: the operation waits there (log 5). -/
def microExec (op : Option Instr) (m : Micro) (rest : List Micro) (s : State) : Option State :=
  match m with
  | .pollInput =>
    match s.env.answers with
    | [] => none
    | b :: bs =>
      if (decodeStatus s.cfg.passwordActiveLevel b).inputFull then some (s.readsStatus b bs)
      else some ((s.readsStatus b bs).continueAt op rest)
  | .writeCommand c => some ((s.writesCommand c).continueAt op rest)
  | .writeData d => some ((s.writesData d).continueAt op rest)
  | .writeDataCb => some ((s.writesData s.ctl.cb).continueAt op rest)
  | .writeDataSaved => some ((s.writesData s.ctl.saved).continueAt op rest)
  | .pollStale =>
    match s.env.answers with
    | [] => none
    | b :: bs =>
      match (decodeStatus s.cfg.passwordActiveLevel b).data with
      | none => some ((s.readsStatus b bs).continueAt op rest)
      | some _ => some ((s.readsStatus b bs).continueAt op (.dropStale :: rest))
  | .dropStale =>
    match s.env.answers with
    | [] => none
    | b :: bs => some ((s.readsData b bs).continueAt op rest)
  | .pollResponse _ =>
    match s.env.answers with
    | [] => none
    | b :: bs =>
      if (decodeStatus s.cfg.passwordActiveLevel b).data = some .keyboardOrCommandController then
        some ((s.readsStatus b bs).continueAt op rest)
      else some (s.readsStatus b bs)
  | .takeResponse _ =>
    match s.env.answers with
    | [] => none
    | b :: bs =>
      let s' := s.readsData b bs
      some (({ s' with ctl := { s'.ctl with resp := b } }).continueAt op rest)
  | .cbFromResp =>
    some (({ s with ctl := { s.ctl with cb := s.ctl.resp } }).continueAt op rest)
  | .savedFromResp =>
    some (({ s with ctl := { s.ctl with saved := s.ctl.resp } }).continueAt op rest)
  | .cbClearInterrupts =>
    some (({ s with ctl := { s.ctl with cb := s.ctl.cb &&& 0xFC } }).continueAt op rest)
  | .cbSetTranslate en =>
    some (({ s with ctl := { s.ctl with cb := withTranslate s.ctl.cb en } }).continueAt op rest)
  | .cbSetInterrupts d =>
    some (({ s with ctl := { s.ctl with cb := s.ctl.cb ||| interruptBits d } }).continueAt op rest)
  | .judgeTest which =>
    match interfaceTestMap s.ctl.resp with
    | none => some (s.continueAt op rest)
    | some e => some (s.returns (.err (.interfaceError which s.ctl.resp e)))
  | .judgeSelfTest =>
    if s.ctl.resp = byteSelfTestPassed then some (s.returns (.ok .unit))
    else some (s.returns (.err (.selfTestFailed s.ctl.resp)))
  | .returnResponse => some (s.returns (.ok (.byte s.ctl.resp)))
  | .enterDisabled =>
    some (({ s with
      ctl := { s.ctl with sel := 0, irq := false, state := .devicesDisabled } }).continueAt op rest)
  | .enterEnabled d irq =>
    some (({ s with
      ctl := { s.ctl with
        sel := selectorMask d, irq := irq, state := .enabledDevices } }).continueAt op rest)
  | .reportStatus =>
    match s.env.answers with
    | [] => none
    | b :: bs =>
      some ((s.readsStatus b bs).returns (.ok (.status (decodeStatus s.cfg.passwordActiveLevel b))))
  | .pollOwner =>
    match s.env.answers with
    | [] => none
    | b :: bs =>
      match (decodeStatus s.cfg.passwordActiveLevel b).data with
      | none => some ((s.readsStatus b bs).returns (.ok .noData))
      | some owner => some ((s.readsStatus b bs).continueAt op (.takeOwned owner :: rest))
  | .takeOwned owner =>
    match s.env.answers with
    | [] => none
    | b :: bs => some ((s.readsData b bs).returns (.ok (.data owner b)))
  | .queueAdd c =>
    if s.queueFull then some (s.returns (.err (.queueFullCommand c)))
    else
      let s' := { s with q := { s.q with fifo := s.q.fifo ++ [c] } }
      match s.q.inflight with
      | none => some (s'.startFront op rest)
      | some _ => some (s'.continueAt op rest)
  | .setInflight c => some (({ s with q := { s.q with inflight := some c } }).continueAt op rest)
  | .finishCommand => some (s.startFront op rest)
  | .setMarker mk => some (({ s with ks := { s.ks with marker := mk } }).continueAt op rest)
  | .resetDecoder =>
    some (({ s with
      decoder := { table := .set2, progress := Config.decoderReset s.decoder } }).continueAt op rest)
  | .decodeByte b =>
    let answer := Config.scancodeDecode s.decoder b
    some (({ s with decoder := answer.2 }).returns (toEvent answer.1))
  | .ret r => some (s.returns r)

/-- One micro-step of the block, if it can take one: none when it is idle or waits for an answer.
A sequence whose steps are all done leaves the block idle (10_state.md R25). -/
def microStep (s : State) : Option State :=
  match s.ctl.upc with
  | .idle => none
  | .running _ [] => some { s with ctl := { s.ctl with upc := .idle } }
  | .running op (m :: rest) => microExec op m rest s

/-- How much a step of a sequence counts for `measure`: the queue's two steps bring up to two more
steps with them (the `DevWrite` of a command that starts). -/
def Micro.weight : Micro → Nat
  | .queueAdd _ => 4
  | .finishCommand => 4
  | _ => 1

/-- A bound on the micro-steps left: every one of them uses up an answer or a step. -/
def State.measure (s : State) : Nat :=
  match s.ctl.upc with
  | .idle => 0
  | .running _ rest => 1 + (rest.map Micro.weight).sum + s.env.answers.length

/-- Up to `n` micro-steps. -/
def runFor : Nat → State → State
  | 0, s => s
  | n + 1, s =>
    match microStep s with
    | none => s
    | some s' => runFor n s'

/-- Run the sequence in progress until it returns or waits for an answer that is not listed. A wait
that never ends stays there: no bound, no error (41_port_handshake.md R143, 93 U1; log 6). -/
def runAll (s : State) : State := runFor s.measure s

/-- Go on with the sequence in progress as far as one step of the model may: `grain` says how many
micro-steps that is, `used` how many of them this step has made already (00_scope.md R6; log 6). -/
def State.goOn (s : State) (used : Nat) : State :=
  match s.grain with
  | none => runAll s
  | some n => runFor (n + 1 - used) s

/-- The sequence in progress, as far as one step of the model goes. -/
def advance (s : State) : State := s.goOn 0

/-- A request is accepted only when nothing runs; otherwise nothing happens (00_scope.md R8). An
accepted one clears the last result (log 18). -/
def accept (s : State) (k : State → Host.Outcome State Fault Refusal) :
    Host.Outcome State Fault Refusal :=
  match s.ctl.upc with
  | .idle => k { s with host := { s.host with result := none } }
  | .running _ _ => .next s

/-- End at once with `Err(e)`: no port transaction, no other change (60_exceptions.md R283). -/
def fail (e : Err) (s : State) : Host.Outcome State Fault Refusal := .next (s.returns (.err e))

/-- Start the micro-sequence of an instruction and go on with it as far as this step does. -/
def launch (i : Instr) (prog : List Micro) (s : State) : Host.Outcome State Fault Refusal :=
  .next (advance (s.continueAt (some i) prog))

/-- The state check of an operation (42_controller_fsm.md R150, 60_exceptions.md R273). -/
def inState (st : ProtocolState) (s : State) (k : State → Host.Outcome State Fault Refusal) :
    Host.Outcome State Fault Refusal :=
  if s.ctl.state = st then k s else fail .wrongState s

/-- The session gate (44_keyboard_session.md R238). -/
def sessionGate (s : State) (k : State → Host.Outcome State Fault Refusal) :
    Host.Outcome State Fault Refusal :=
  if s.ctl.state = .enabledDevices then
    if s.ctl.sel.getLsbD 0 then k s else fail .deviceNotEnabled s
  else fail .wrongState s

/-- The reset of the block: every element of its own state at its reset value, the parameters, the
environment, the scancode decoder and the presented words as they were (10_state.md R40,
70_reset_and_hazards.md R300 to R302). -/
def State.resetBlock (s : State) : State :=
  { s with
    ctl := State.reset.ctl
    q := State.reset.q
    ks := State.reset.ks
    host := { s.host with result := none, resetLine := false } }

end Sys2Proof.Machine
end

