-- ==== Sys2Proof/Machine/ControllerCommands.lean ====
section
/-! DEFINITION. The controller commands (30_encoding.md R95 to R98), each run by the handshake
primitive of its class: plain, parameter or response (41_port_handshake.md R137 to R139). A primitive
is no host operation: it checks no protocol state and returns no result to the host. -/

namespace Sys2Proof.Machine

/-- A plain command (R137). -/
def plainCommand (i : Instr) (c : Byte) (s : State) : Host.Outcome State Fault Refusal :=
  accept s fun s => launch i (ctlCmd c) s

/-- A parameter command (R138). -/
def parameterCommand (i : Instr) (c d : Byte) (s : State) : Host.Outcome State Fault Refusal :=
  accept s fun s => launch i (ctlCmdData c d) s

/-- A response command (R139): the response is left in `ctl.resp`. -/
def responseCommand (i : Instr) (c : Byte) (s : State) : Host.Outcome State Fault Refusal :=
  accept s fun s => launch i (ctlCmdResp c) s

/-- `READ_COMMAND_BYTE`, 0x20. -/
def execCtlReadCommandByte (s : State) : Host.Outcome State Fault Refusal :=
  responseCommand .ctlReadCommandByte 0x20 s

/-- `READ_RAM(idx)`, 0x20 + idx (R96). -/
def execCtlReadRam (idx : BitVec 5) (s : State) : Host.Outcome State Fault Refusal :=
  responseCommand (.ctlReadRam idx) (readRamByte idx) s

/-- `WRITE_COMMAND_BYTE`, 0x60, with the new command byte. -/
def execCtlWriteCommandByte (d : Byte) (s : State) : Host.Outcome State Fault Refusal :=
  parameterCommand (.ctlWriteCommandByte d) 0x60 d s

/-- `WRITE_RAM(idx)`, 0x60 + idx, with the byte to store (R96). -/
def execCtlWriteRam (idx : BitVec 5) (d : Byte) (s : State) : Host.Outcome State Fault Refusal :=
  parameterCommand (.ctlWriteRam idx d) (writeRamByte idx) d s

/-- `DISABLE_AUX`, 0xA7. -/
def execCtlDisableAux (s : State) : Host.Outcome State Fault Refusal :=
  plainCommand .ctlDisableAux 0xA7 s

/-- `ENABLE_AUX`, 0xA8. -/
def execCtlEnableAux (s : State) : Host.Outcome State Fault Refusal :=
  plainCommand .ctlEnableAux 0xA8 s

/-- `AUX_TEST`, 0xA9. -/
def execCtlAuxTest (s : State) : Host.Outcome State Fault Refusal :=
  responseCommand .ctlAuxTest 0xA9 s

/-- `SELF_TEST`, 0xAA. -/
def execCtlSelfTest (s : State) : Host.Outcome State Fault Refusal :=
  responseCommand .ctlSelfTest 0xAA s

/-- `KBD_TEST`, 0xAB. -/
def execCtlKbdTest (s : State) : Host.Outcome State Fault Refusal :=
  responseCommand .ctlKbdTest 0xAB s

/-- `DISABLE_KBD`, 0xAD. -/
def execCtlDisableKbd (s : State) : Host.Outcome State Fault Refusal :=
  plainCommand .ctlDisableKbd 0xAD s

/-- `ENABLE_KBD`, 0xAE. -/
def execCtlEnableKbd (s : State) : Host.Outcome State Fault Refusal :=
  plainCommand .ctlEnableKbd 0xAE s

/-- `WRITE_TO_AUX`, 0xD4, with the byte for the auxiliary device (R145). -/
def execCtlWriteToAux (d : Byte) (s : State) : Host.Outcome State Fault Refusal :=
  parameterCommand (.ctlWriteToAux d) 0xD4 d s

/-- `PULSE_OUTPUT(mask)`: 0xFE, the CPU reset pulse, is the only one the block emits (R97, R105(b),
42_controller_fsm.md R160; 93 U5(a): the others "cannot occur; a model has no case for them",
log 13). -/
def execCtlPulseOutput (mask : BitVec 4) (s : State) : Host.Outcome State Fault Refusal :=
  if mask = 0b1110 then plainCommand (.ctlPulseOutput mask) (pulseOutputByte mask) s
  else .refused (.pulsePatternNeverEmitted mask)

end Sys2Proof.Machine
end

