-- ==== Sys2Proof/Machine/ControllerOps.lean ====
section
/-! DEFINITION. The host operations of the status decoder and of the controller FSM
(40_status_decoder.md R128, 42_controller_fsm.md). Each meaning makes the checks of R150 and
60_exceptions.md R285 and then runs the micro-sequence of its rule. -/

namespace Sys2Proof.Machine

/-- `InitSequence()` (42_controller_fsm.md R151). -/
def initSequence : List Micro :=
  ctlCmd 0xAD ++ ctlCmd 0xA7 ++ readCbToCb ++ [.cbClearInterrupts] ++ writeCb ++ [.enterDisabled]

/-- The test of one interface in an enabling transition (R161 steps 1 and 2). -/
def testSteps : TestedInterface → List Micro
  | .keyboard => ctlCmdResp 0xAB ++ [.judgeTest .keyboard]
  | .auxiliary => ctlCmdResp 0xA9 ++ [.judgeTest .auxiliary]

/-- `EnableSequence(sel, irq)` (R161). -/
def enableSequence (d : EnableDevice) (irq : Bool) : List Micro :=
  (if hasKeyboard d then testSteps .keyboard else []) ++
  (if hasAuxiliary d then testSteps .auxiliary else []) ++
  (if hasKeyboard d then ctlCmd 0xAE else []) ++
  (if hasAuxiliary d then ctlCmd 0xA8 else []) ++
  (if irq then readCbToCb ++ [.cbSetInterrupts d] ++ writeCb else []) ++
  [.enterEnabled d irq, .ret (.ok .unit)]

/-- The common body of the two enabling operations: state, operand, sequence (R165, R167). -/
def enableOperation (i : Instr) (sel : BitVec 2) (irq : Bool) (s : State) :
    Host.Outcome State Fault Refusal :=
  accept s fun s =>
    inState .devicesDisabled s fun s =>
      match selectorOf sel with
      | none => fail .badOperand s
      | some d => launch i (enableSequence d irq) s

/-- `read_status` (40_status_decoder.md R128). -/
def execReadStatus (s : State) : Host.Outcome State Fault Refusal :=
  accept s fun s => launch .readStatus [.reportStatus] s

/-- `start_init` (42_controller_fsm.md R151). -/
def execStartInit (s : State) : Host.Outcome State Fault Refusal :=
  accept s fun s =>
    inState .initController s fun s => launch .startInit (initSequence ++ [.ret (.ok .unit)]) s

/-- `set_translation en` (R153). -/
def execSetTranslation (en : Bool) (s : State) : Host.Outcome State Fault Refusal :=
  accept s fun s =>
    inState .devicesDisabled s fun s =>
      launch (.setTranslation en)
        (readCbToCb ++ [.cbSetTranslate en] ++ writeCb ++ [.ret (.ok .unit)]) s

/-- The steps of `self_test` (R154). -/
def selfTestSteps : List Micro :=
  ctlCmdResp 0x20 ++ [.savedFromResp] ++ ctlCmdResp 0xAA ++ ctlCmd 0x60 ++
    [.writeDataSaved, .judgeSelfTest]

/-- `self_test` (R154). -/
def execSelfTest (s : State) : Host.Outcome State Fault Refusal :=
  accept s fun s => inState .devicesDisabled s fun s => launch .selfTest selfTestSteps s

/-- `keyboard_interface_test` (R156). -/
def execKeyboardInterfaceTest (s : State) : Host.Outcome State Fault Refusal :=
  accept s fun s =>
    inState .devicesDisabled s fun s =>
      launch .keyboardInterfaceTest (testSteps .keyboard ++ [.ret (.ok .unit)]) s

/-- `aux_interface_test` (R157). -/
def execAuxInterfaceTest (s : State) : Host.Outcome State Fault Refusal :=
  accept s fun s =>
    inState .devicesDisabled s fun s =>
      launch .auxInterfaceTest (testSteps .auxiliary ++ [.ret (.ok .unit)]) s

/-- `ram_read idx` (R158). -/
def execRamRead (idx : BitVec 5) (s : State) : Host.Outcome State Fault Refusal :=
  accept s fun s =>
    inState .devicesDisabled s fun s =>
      if idx = 0 then fail .badOperand s
      else launch (.ramRead idx) (ctlCmdResp (0x20 + idx.zeroExtend 8) ++ [.returnResponse]) s

/-- `ram_write idx, v` (R159). -/
def execRamWrite (idx : BitVec 5) (v : Byte) (s : State) : Host.Outcome State Fault Refusal :=
  accept s fun s =>
    inState .devicesDisabled s fun s =>
      if idx = 0 then fail .badOperand s
      else
        launch (.ramWrite idx v) (ctlCmdData (0x60 + idx.zeroExtend 8) v ++ [.ret (.ok .unit)]) s

/-- `cpu_reset` (R160): the block's own state is not reset. -/
def execCpuReset (s : State) : Host.Outcome State Fault Refusal :=
  accept s fun s =>
    inState .devicesDisabled s fun s => launch .cpuReset (ctlCmd 0xFE ++ [.ret (.ok .unit)]) s

/-- `enable_devices sel` (R165). -/
def execEnableDevices (sel : BitVec 2) (s : State) : Host.Outcome State Fault Refusal :=
  enableOperation (.enableDevices sel) sel false s

/-- `enable_devices_and_interrupts sel` (R167). -/
def execEnableDevicesAndInterrupts (sel : BitVec 2) (s : State) :
    Host.Outcome State Fault Refusal :=
  enableOperation (.enableDevicesAndInterrupts sel) sel true s

/-- `send_to_keyboard b` (R168). -/
def execSendToKeyboard (b : Byte) (s : State) : Host.Outcome State Fault Refusal :=
  accept s fun s =>
    inState .enabledDevices s fun s =>
      if s.ctl.sel.getLsbD 0 then
        launch (.sendToKeyboard b) (devWriteKbd b ++ [.ret (.ok .unit)]) s
      else fail .deviceNotEnabled s

/-- `send_to_auxiliary_device b` (R169). -/
def execSendToAuxiliaryDevice (b : Byte) (s : State) : Host.Outcome State Fault Refusal :=
  accept s fun s =>
    inState .enabledDevices s fun s =>
      if s.ctl.sel.getLsbD 1 then
        launch (.sendToAuxiliaryDevice b) (devWriteAux b ++ [.ret (.ok .unit)]) s
      else fail .deviceNotEnabled s

/-- `poll_data` (R170). -/
def execPollData (s : State) : Host.Outcome State Fault Refusal :=
  accept s fun s => inState .enabledDevices s fun s => launch .pollData [.pollOwner] s

/-- `disable_devices` (R171): the full re-initialization when interrupts were enabled, the two
disable commands otherwise. -/
def execDisableDevices (s : State) : Host.Outcome State Fault Refusal :=
  accept s fun s =>
    inState .enabledDevices s fun s =>
      if s.ctl.irq then launch .disableDevices (initSequence ++ [.ret (.ok .unit)]) s
      else
        launch .disableDevices
          (ctlCmd 0xAD ++ ctlCmd 0xA7 ++ [.enterDisabled, .ret (.ok .unit)]) s

end Sys2Proof.Machine
end

