-- ==== Sys2Proof/Machine/Queue.lean ====
section
/-! DEFINITION. The command queue and its checker (43_command_queue.md): the command records, the
checker's table (R196 to R207), and `q_receive` (R194). `q_add`, `Start` and `Finish` are the
micro-steps `queueAdd` and `finishCommand` of Machine/Ops.lean. -/

namespace Sys2Proof.Machine

/-- A new command record (10_state.md R32). The payload of a variant without one, and the two
captured bytes until the handshake writes them, hold no meaningful value: free values, the n-th and
the two after it (log 3). -/
def newCommand (variant : Variant) (cmd : Byte) (payload : Option Byte) (n : Nat) : Command :=
  { variant := variant
    cmd := cmd
    data := payload.getD (Config.freeByte n)
    cur := firstCursor variant
    r1 := Config.freeByte (n + 1)
    r2 := Config.freeByte (n + 2) }

/-- The counter of free values after `k` command records. -/
def State.usesFree (s : State) (k : Nat) : State := { s with freeCount := s.freeCount + 3 * k }

/-- How a row of the checker's table ends (43_command_queue.md R207). -/
inductive RowEnd where
  | inProgress
  | finished
  | unexpected
  deriving DecidableEq, Repr

/-- A row of the checker's table: the `DevWrite` if any, the command with its next cursor and
captured bytes, and the status class. -/
structure CheckerRow where
  write : Option Byte
  after : Command
  ending : RowEnd
  deriving DecidableEq, Repr

/-- The rows of an ACK-waiting cursor: the awaited confirmation, RESEND (which writes `again` and
does not advance, R209), and any other byte (which changes nothing, R210). -/
def ackRows (c : Command) (b confirm again : Byte) (confirmed : CheckerRow) : CheckerRow :=
  if b = confirm then confirmed
  else if b = byteResend then { write := some again, after := c, ending := .inProgress }
  else { write := none, after := c, ending := .unexpected }

/-- The checker (R196 to R206), one row for every variant, cursor and byte. A cursor that is not one
of its variant's (10_state.md R33) does not occur; there the byte is unexpected, DESIGN CHOICE
(log 14). -/
def checkerRow (c : Command) (b : Byte) : CheckerRow :=
  match c.variant, c.cur with
  | .ackResponse, .waitAck =>
    ackRows c b byteAck c.cmd { write := none, after := c, ending := .finished }
  | .echo, .waitEcho =>
    ackRows c b byteEchoReply 0xEE { write := none, after := c, ending := .finished }
  | .ackResponseWithReturnTwoBytes, .waitAck =>
    ackRows c b byteAck c.cmd
      { write := none, after := { c with cur := .waitByte1 }, ending := .inProgress }
  | .ackResponseWithReturnTwoBytes, .waitByte1 =>
    { write := none, after := { c with r1 := b, cur := .waitByte2 }, ending := .inProgress }
  | .ackResponseWithReturnTwoBytes, .waitByte2 =>
    { write := none, after := { c with r2 := b }, ending := .finished }
  | .sendCommandAndData, .waitAck1 =>
    ackRows c b byteAck c.cmd
      { write := some c.data, after := { c with cur := .waitAck2 }, ending := .inProgress }
  | .sendCommandAndData, .waitAck2 =>
    ackRows c b byteAck c.data { write := none, after := c, ending := .finished }
  | .sendCommandAndDataSingleAck, .waitAck1 =>
    ackRows c b byteAck c.cmd
      { write := some c.data, after := { c with cur := .waitFollowing }, ending := .inProgress }
  | .sendCommandAndDataSingleAck, .waitFollowing =>
    { write := none, after := { c with r1 := b }, ending := .finished }
  | .sendCommandAndDataAndReceiveResponse, .waitAck1 =>
    ackRows c b byteAck c.cmd
      { write := some c.data, after := { c with cur := .waitAck2 }, ending := .inProgress }
  | .sendCommandAndDataAndReceiveResponse, .waitAck2 =>
    ackRows c b byteAck c.data
      { write := none, after := { c with cur := .waitResponse }, ending := .inProgress }
  | .sendCommandAndDataAndReceiveResponse, .waitResponse =>
    { write := none, after := { c with r1 := b }, ending := .finished }
  | _, _ => { write := none, after := c, ending := .unexpected }

/-- The status a row gives for the byte `b` (R211). -/
def rowStatus (row : CheckerRow) (b : Byte) : QueueStatus :=
  match row.ending with
  | .inProgress => .commandInProgress
  | .finished => .commandFinished row.after
  | .unexpected => .unexpectedData b

/-- The `DevWrite` of a row, if it has one. -/
def rowWrite (row : CheckerRow) : List Micro :=
  match row.write with
  | none => []
  | some d => devWriteKbd d

/-- What a row does, in the order of R194 step 3: its `DevWrite`, then the command's new cursor and
captures, or `Finish` (R208). An unexpected byte changes nothing (R210). -/
def rowSteps (row : CheckerRow) : List Micro :=
  rowWrite row ++
    match row.ending with
    | .inProgress => [.setInflight row.after]
    | .finished => [.finishCommand]
    | .unexpected => []

/-- The steps of `q_receive(b)` (R194, R195), with `conclude` for what becomes of the status. -/
def receiveSteps (inflight : Option Command) (b : Byte) (conclude : QueueStatus → List Micro) :
    List Micro :=
  match inflight with
  | none => conclude (.unexpectedData b)
  | some c => rowSteps (checkerRow c b) ++ conclude (rowStatus (checkerRow c b) b)

/-- `q_add` of a new command as an instruction of its own, behind the session's gate, which stands before
every call of the queue (R212, 44_keyboard_session.md R238; log 25): its answer is `Ok(())` or
`Err(QueueFull(command))` (R191). -/
def queueAddNew (i : Instr) (variant : Variant) (cmd : Byte) (payload : Option Byte) (s : State) :
    Host.Outcome State Fault Refusal :=
  accept s fun s =>
    sessionGate s fun s =>
      launch i [.queueAdd (newCommand variant cmd payload s.freeCount), .ret (.ok .unit)]
        (s.usesFree 1)

end Sys2Proof.Machine
end

