-- ==== Sys2Proof/Machine/DeviceCommands.lean ====
section
/-! DEFINITION. The device commands (30_encoding.md R100, R101), each the `q_add` of the `Command` of
its variant (43_command_queue.md R191, R192; 44_keyboard_session.md R240; 30_encoding.md R107(d)),
behind the gate that the session applies before it calls the queue (43_command_queue.md R212; log 25). -/

namespace Sys2Proof.Machine

/-- `SET_INDICATORS`, 0xED, with the LED byte. -/
def execDevSetIndicators (payload : Byte) (s : State) : Host.Outcome State Fault Refusal :=
  queueAddNew (.devSetIndicators payload) .sendCommandAndData 0xED (some payload) s

/-- `ECHO`, 0xEE. -/
def execDevEcho (s : State) : Host.Outcome State Fault Refusal :=
  queueAddNew .devEcho .echo 0xEE none s

/-- `SELECT_SCANCODE_SET`, 0xF0: a payload of 0x00 asks for the current set and takes the variant
that receives it, any other payload sets (R100). -/
def execDevSelectScancodeSet (payload : Byte) (s : State) : Host.Outcome State Fault Refusal :=
  queueAddNew (.devSelectScancodeSet payload)
    (if payload = 0x00 then .sendCommandAndDataAndReceiveResponse else .sendCommandAndData)
    0xF0 (some payload) s

/-- `READ_ID`, 0xF2. -/
def execDevReadId (s : State) : Host.Outcome State Fault Refusal :=
  queueAddNew .devReadId .ackResponseWithReturnTwoBytes 0xF2 none s

/-- `SET_TYPEMATIC`, 0xF3, with the rate byte. -/
def execDevSetTypematic (payload : Byte) (s : State) : Host.Outcome State Fault Refusal :=
  queueAddNew (.devSetTypematic payload) .sendCommandAndData 0xF3 (some payload) s

/-- `ENABLE`, 0xF4. -/
def execDevEnable (s : State) : Host.Outcome State Fault Refusal :=
  queueAddNew .devEnable .ackResponse 0xF4 none s

/-- `DISABLE`, 0xF5. -/
def execDevDisable (s : State) : Host.Outcome State Fault Refusal :=
  queueAddNew .devDisable .ackResponse 0xF5 none s

/-- `SET_DEFAULTS`, 0xF6. -/
def execDevSetDefaults (s : State) : Host.Outcome State Fault Refusal :=
  queueAddNew .devSetDefaults .ackResponse 0xF6 none s

end Sys2Proof.Machine
end

