-- ==== Sys2Proof/Machine/SessionOps.lean ====
section
/-! DEFINITION. The keyboard session's host operations (44_keyboard_session.md): the routing of a
received byte and the issuing of commands. -/

namespace Sys2Proof.Machine

/-- The write of `ks.marker` when a command finishes: an `AckResponse` with 0xF5 or 0xF4 (R241). -/
def markerSteps (c : Command) : List Micro :=
  match c.variant with
  | .ackResponse =>
    if c.cmd = 0xF5 then [.setMarker .disabled]
    else if c.cmd = 0xF4 then [.setMarker .enabled]
    else []
  | _ => []

/-- `OnFinished(c)` (R236). -/
def onFinished (c : Command) : List Micro :=
  match c.variant with
  | .ackResponse => markerSteps c ++ [.ret (.ok .noEvent)]
  | .echo => [.ret (.ok (.event .echoReceived))]
  | .ackResponseWithReturnTwoBytes => [.ret (.ok (.event (.id c.r1 c.r2)))]
  | .sendCommandAndData => [.ret (.ok .noEvent)]
  | .sendCommandAndDataSingleAck => [.decodeByte c.r1]
  | .sendCommandAndDataAndReceiveResponse => [.ret (.ok (.event (.scancodeSet c.r1)))]

/-- What the session makes of the queue's status (R235). -/
def sessionAnswer : QueueStatus → List Micro
  | .commandInProgress => [.ret (.ok .noEvent)]
  | .unexpectedData x => [.decodeByte x]
  | .commandFinished c => onFinished c

/-- The steps of BAT completion (R233). -/
def batCompletedSteps : List Micro :=
  [.setMarker .enabled, .resetDecoder, .ret (.ok (.event .batCompleted))]

/-- The routing of a received byte, steps 2 to 6 of R251, in the order of the document's tests. -/
def sessionReceive (s : State) (b : Byte) : List Micro :=
  if b = s.cfg.overrunCode then [.ret (.err .keyDetectionOverrun)]
  else if b = byteBatFail then [.ret (.err .batFailed)]
  else if b = byteBatOk then batCompletedSteps
  else
    match s.q.inflight with
    | none => if b = byteResend then [.ret (.ok .noEvent)] else [.decodeByte b]
    | some c => receiveSteps (some c) b sessionAnswer

/-- `Issue(c)` for a new command (R239): the gate, the capacity, `q_add`. The operand check of an
operation that has one stands between the gate and the capacity: `legal`. -/
def issue (i : Instr) (legal : Bool) (variant : Variant) (cmd : Byte) (payload : Option Byte)
    (s : State) : Host.Outcome State Fault Refusal :=
  accept s fun s =>
    sessionGate s fun s =>
      if legal then
        if s.queueFull then fail .queueFull s
        else
          launch i [.queueAdd (newCommand variant cmd payload s.freeCount), .ret (.ok .unit)]
            (s.usesFree 1)
      else fail .badOperand s

/-- A byte read as keyboard data, routed by the session (R251): the gate, then steps 2 to 6. `op` is the
instruction that brings the byte, none for a byte that has no row of its own in the opcode table. -/
def receiveByte (op : Option Instr) (b : Byte) (s : State) : Host.Outcome State Fault Refusal :=
  accept s fun s =>
    sessionGate s fun s => .next (advance (s.continueAt op (sessionReceive s b)))

/-- `kbd_receive b` (R251). -/
def execKbdReceive (b : Byte) (s : State) : Host.Outcome State Fault Refusal :=
  receiveByte (some (.kbdReceive b)) b s

/-- `kbd_disable` (R242). -/
def execKbdDisable (s : State) : Host.Outcome State Fault Refusal :=
  issue .kbdDisable true .ackResponse 0xF5 none s

/-- `kbd_set_defaults` (R243). -/
def execKbdSetDefaults (s : State) : Host.Outcome State Fault Refusal :=
  issue .kbdSetDefaults true .ackResponse 0xF6 none s

/-- `kbd_enable` (R244). -/
def execKbdEnable (s : State) : Host.Outcome State Fault Refusal :=
  issue .kbdEnable true .ackResponse 0xF4 none s

/-- `kbd_set_leds leds` (R245). -/
def execKbdSetLeds (leds : Byte) (s : State) : Host.Outcome State Fault Refusal :=
  issue (.kbdSetLeds leds) true .sendCommandAndData 0xED (some leds) s

/-- `kbd_set_typematic rate` (R246). -/
def execKbdSetTypematic (rate : Byte) (s : State) : Host.Outcome State Fault Refusal :=
  issue (.kbdSetTypematic rate) (typematicLegal rate) .sendCommandAndData 0xF3 (some rate) s

/-- The free slots `kbd_select_scancode_set` needs (R247 step 3). -/
def scancodeSlots (s : State) : Nat := if s.q.inflight = none then 1 else 2

/-- `kbd_select_scancode_set n` (R247): both commands are accepted or neither. -/
def execKbdSelectScancodeSet (n : Byte) (s : State) : Host.Outcome State Fault Refusal :=
  accept s fun s =>
    sessionGate s fun s =>
      if scancodeSetLegal n then
        if s.cfg.queueCapacity - s.q.fifo.length < scancodeSlots s then fail .queueFull s
        else
          launch (.kbdSelectScancodeSet n)
            [.queueAdd (newCommand .sendCommandAndData 0xF0 (some n) s.freeCount),
             .queueAdd
              (newCommand .sendCommandAndDataAndReceiveResponse 0xF0 (some 0x00) (s.freeCount + 3)),
             .ret (.ok .unit)]
            (s.usesFree 2)
      else fail .badOperand s

/-- `kbd_read_id` (R248). -/
def execKbdReadId (s : State) : Host.Outcome State Fault Refusal :=
  issue .kbdReadId true .ackResponseWithReturnTwoBytes 0xF2 none s

/-- `kbd_echo` (R249). -/
def execKbdEcho (s : State) : Host.Outcome State Fault Refusal :=
  issue .kbdEcho true .echo 0xEE none s

end Sys2Proof.Machine
end

