-- ==== Sys2Proof/Machine/ResponseBytes.lean ====
section
/-! DEFINITION. The response bytes (30_encoding.md R99, R102). A byte of keyboard data is routed by the
session (44_keyboard_session.md R251), whichever part then acts on it (R102): the session itself on
`BAT_OK`, `BAT_FAIL` and the overrun, always, and on `RESEND` when the queue is idle; the checker on
`ACK`, `RESEND` and `ECHO_REPLY` when a command is in flight, the session concluding what its status means
(R235, R236, R241; log 11). The controller's responses are the data read of the response command that
awaits one (41_port_handshake.md R139, R141; log 12). -/

namespace Sys2Proof.Machine

/-- The byte `r` read as the awaited response: `R(DATA)=r`, `ctl.resp <- r`, and the running
operation goes on with it. Where no response is awaited at the data port the block reads nothing
(20_memory.md R69). -/
def deliverResponse (r : Byte) (s : State) : Host.Outcome State Fault Refusal :=
  match s.ctl.upc with
  | .running op (.takeResponse _ :: rest) =>
    let s' := s.readsData r s.env.answers
    .next (State.goOn (({ s' with ctl := { s'.ctl with resp := r } }).continueAt op rest) 1)
  | _ => .next s

/-- `ACK`, 0xFA. With a command in flight it is the checker's at an ACK stage (43_command_queue.md R196),
and what it finishes is concluded by the session: 0xF5 and 0xF4 write `ks.marker` (R241). -/
def execRespAck (s : State) : Host.Outcome State Fault Refusal := receiveByte (some .respAck) byteAck s

/-- `RESEND`, 0xFE: the checker's with a command in flight (43_command_queue.md R209), swallowed on an
idle queue (44_keyboard_session.md R234). -/
def execRespResend (s : State) : Host.Outcome State Fault Refusal :=
  receiveByte (some .respResend) byteResend s

/-- `ECHO_REPLY`, 0xEE: the checker's for `Echo` (43_command_queue.md R197). -/
def execRespEchoReply (s : State) : Host.Outcome State Fault Refusal :=
  receiveByte (some .respEchoReply) byteEchoReply s

/-- `BAT_OK`, 0xAA (44_keyboard_session.md R233). -/
def execRespBatOk (s : State) : Host.Outcome State Fault Refusal :=
  receiveByte (some .respBatOk) byteBatOk s

/-- `BAT_FAIL`, 0xFC (R232). -/
def execRespBatFail (s : State) : Host.Outcome State Fault Refusal :=
  receiveByte (some .respBatFail) byteBatFail s

/-- The key-detection overrun, the byte `OVERRUN_CODE` (R232). -/
def execRespKeyDetectionOverrun (s : State) : Host.Outcome State Fault Refusal :=
  receiveByte (some .respKeyDetectionOverrun) s.cfg.overrunCode s

/-- 0x55 in answer to `SELF_TEST` (42_controller_fsm.md R154). -/
def execRespSelfTestPassed (s : State) : Host.Outcome State Fault Refusal :=
  deliverResponse byteSelfTestPassed s

/-- 0x00 in answer to an interface test (R155). -/
def execRespInterfaceTestPassed (s : State) : Host.Outcome State Fault Refusal :=
  deliverResponse 0x00 s

/-- 0x01 in answer to an interface test (R155). -/
def execRespClockLineLow (s : State) : Host.Outcome State Fault Refusal := deliverResponse 0x01 s

/-- 0x02 in answer to an interface test (R155). -/
def execRespClockLineHigh (s : State) : Host.Outcome State Fault Refusal := deliverResponse 0x02 s

/-- 0x03 in answer to an interface test (R155). -/
def execRespDataLineLow (s : State) : Host.Outcome State Fault Refusal := deliverResponse 0x03 s

/-- 0x04 in answer to an interface test (R155). -/
def execRespDataLineHigh (s : State) : Host.Outcome State Fault Refusal := deliverResponse 0x04 s

end Sys2Proof.Machine
end

