-- ==== Sys2Proof/Machine/Dispatch.lean ====
section
/-! DEFINITION. The dispatch: one arm per instruction, each one call of its meaning. -/

namespace Sys2Proof.Machine

/-- The meaning of an instruction in a state. -/
def exec (i : Instr) (s : State) : Host.Outcome State Fault Refusal :=
  match i with
  | .readStatus => Sys2Proof.Machine.execReadStatus s
  | .startInit => Sys2Proof.Machine.execStartInit s
  | .setTranslation en => Sys2Proof.Machine.execSetTranslation en s
  | .selfTest => Sys2Proof.Machine.execSelfTest s
  | .keyboardInterfaceTest => Sys2Proof.Machine.execKeyboardInterfaceTest s
  | .auxInterfaceTest => Sys2Proof.Machine.execAuxInterfaceTest s
  | .ramRead idx => Sys2Proof.Machine.execRamRead idx s
  | .ramWrite idx v => Sys2Proof.Machine.execRamWrite idx v s
  | .cpuReset => Sys2Proof.Machine.execCpuReset s
  | .enableDevices sel => Sys2Proof.Machine.execEnableDevices sel s
  | .enableDevicesAndInterrupts sel => Sys2Proof.Machine.execEnableDevicesAndInterrupts sel s
  | .sendToKeyboard b => Sys2Proof.Machine.execSendToKeyboard b s
  | .sendToAuxiliaryDevice b => Sys2Proof.Machine.execSendToAuxiliaryDevice b s
  | .pollData => Sys2Proof.Machine.execPollData s
  | .disableDevices => Sys2Proof.Machine.execDisableDevices s
  | .kbdReceive b => Sys2Proof.Machine.execKbdReceive b s
  | .kbdDisable => Sys2Proof.Machine.execKbdDisable s
  | .kbdSetDefaults => Sys2Proof.Machine.execKbdSetDefaults s
  | .kbdEnable => Sys2Proof.Machine.execKbdEnable s
  | .kbdSetLeds leds => Sys2Proof.Machine.execKbdSetLeds leds s
  | .kbdSetTypematic rate => Sys2Proof.Machine.execKbdSetTypematic rate s
  | .kbdSelectScancodeSet n => Sys2Proof.Machine.execKbdSelectScancodeSet n s
  | .kbdReadId => Sys2Proof.Machine.execKbdReadId s
  | .kbdEcho => Sys2Proof.Machine.execKbdEcho s
  | .ctlReadCommandByte => Sys2Proof.Machine.execCtlReadCommandByte s
  | .ctlReadRam idx => Sys2Proof.Machine.execCtlReadRam idx s
  | .ctlWriteCommandByte d => Sys2Proof.Machine.execCtlWriteCommandByte d s
  | .ctlWriteRam idx d => Sys2Proof.Machine.execCtlWriteRam idx d s
  | .ctlDisableAux => Sys2Proof.Machine.execCtlDisableAux s
  | .ctlEnableAux => Sys2Proof.Machine.execCtlEnableAux s
  | .ctlAuxTest => Sys2Proof.Machine.execCtlAuxTest s
  | .ctlSelfTest => Sys2Proof.Machine.execCtlSelfTest s
  | .ctlKbdTest => Sys2Proof.Machine.execCtlKbdTest s
  | .ctlDisableKbd => Sys2Proof.Machine.execCtlDisableKbd s
  | .ctlEnableKbd => Sys2Proof.Machine.execCtlEnableKbd s
  | .ctlWriteToAux d => Sys2Proof.Machine.execCtlWriteToAux d s
  | .ctlPulseOutput mask => Sys2Proof.Machine.execCtlPulseOutput mask s
  | .devSetIndicators payload => Sys2Proof.Machine.execDevSetIndicators payload s
  | .devEcho => Sys2Proof.Machine.execDevEcho s
  | .devSelectScancodeSet payload => Sys2Proof.Machine.execDevSelectScancodeSet payload s
  | .devReadId => Sys2Proof.Machine.execDevReadId s
  | .devSetTypematic payload => Sys2Proof.Machine.execDevSetTypematic payload s
  | .devEnable => Sys2Proof.Machine.execDevEnable s
  | .devDisable => Sys2Proof.Machine.execDevDisable s
  | .devSetDefaults => Sys2Proof.Machine.execDevSetDefaults s
  | .respAck => Sys2Proof.Machine.execRespAck s
  | .respResend => Sys2Proof.Machine.execRespResend s
  | .respEchoReply => Sys2Proof.Machine.execRespEchoReply s
  | .respBatOk => Sys2Proof.Machine.execRespBatOk s
  | .respBatFail => Sys2Proof.Machine.execRespBatFail s
  | .respKeyDetectionOverrun => Sys2Proof.Machine.execRespKeyDetectionOverrun s
  | .respSelfTestPassed => Sys2Proof.Machine.execRespSelfTestPassed s
  | .respInterfaceTestPassed => Sys2Proof.Machine.execRespInterfaceTestPassed s
  | .respClockLineLow => Sys2Proof.Machine.execRespClockLineLow s
  | .respClockLineHigh => Sys2Proof.Machine.execRespClockLineHigh s
  | .respDataLineLow => Sys2Proof.Machine.execRespDataLineLow s
  | .respDataLineHigh => Sys2Proof.Machine.execRespDataLineHigh s

end Sys2Proof.Machine
end

