-- ==== Sys2Proof/Machine/Fetch.lean ====
section
/-! DEFINITION. How a word reaches the block: the answer to an unknown operation, a byte that is no
instruction, the response byte a running sequence is about to read, and the placing of a word for the
next step. Machine/Step.lean only calls these. -/

namespace Sys2Proof.Machine

/-- `Err(UnknownOperation)`: no port transaction and no state change (30_encoding.md R105(a),
60_exceptions.md R274). -/
def rejectOperation (s : State) : Host.Outcome State Fault Refusal := fail .unknownOperation s

/-- A byte of keyboard data that has no row of its own in the table: scancode data or the data byte of a
response (30_encoding.md R102, R105(d)), routed by the session as every other (R251; log 11). -/
def receivePlainByte (b : Byte) (s : State) : Host.Outcome State Fault Refusal :=
  receiveByte none b s

/-- The response byte the sequence reads next, with the command it answers, and the answers left. -/
def awaitedResponse (rest : List Micro) (answers : List Byte) : Option (Presented × List Byte) :=
  match rest, answers with
  | .takeResponse after :: _, r :: bs => some (.controllerResponse after r, bs)
  | _, _ => none

/-- The operation that awaits the response to `after` at its data read, with the steps that follow:
`self_test` after 0xAA (42_controller_fsm.md R154), `aux_interface_test` after 0xA9 (R157),
`keyboard_interface_test` otherwise (R156). -/
def awaitingOperation (after : Byte) : Upc :=
  if after = 0xAA then
    .running (some .selfTest)
      ([.takeResponse 0xAA] ++ ctlCmd 0x60 ++ [.writeDataSaved, .judgeSelfTest])
  else if after = 0xA9 then
    .running (some .auxInterfaceTest)
      [.takeResponse 0xA9, .judgeTest .auxiliary, .ret (.ok .unit)]
  else
    .running (some .keyboardInterfaceTest)
      [.takeResponse 0xAB, .judgeTest .keyboard, .ret (.ok .unit)]

/-- Place a word so that the very next step takes it and runs it as far as the answers allow (log 6,
log 7). -/
def placeWord (w : Presented) (s : State) : State :=
  match w with
  | .controllerResponse after b =>
    { s with
      grain := none
      ctl := { s.ctl with upc := awaitingOperation after }
      env := { s.env with answers := b :: s.env.answers }
      host := { s.host with resetLine := false } }
  | w =>
    { s with
      grain := none
      ctl := { s.ctl with upc := .idle }
      host := { s.host with presented := w :: s.host.presented, resetLine := false } }

end Sys2Proof.Machine
end

