-- ==== Sys2Proof/Machine/Step.lean ====
section
/-! DEFINITION. One step of the machine: the reset input, the sequence in progress, or the next word
presented; and where the host places a word for the next step (log 6, log 7). -/

namespace Sys2Proof.Machine

/-- A word that is no instruction: an unknown operation is answered (30_encoding.md R105(a)), a byte
of keyboard data goes to the session (R105(d)), a response byte that nothing awaits is not read, and
a byte that is no command is refused by name (R105(b), (c); log 24). -/
def stepRejected (r : DecodeReject) (s : State) : Host.Outcome State Fault Refusal :=
  match r with
  | .unknownOperation => rejectOperation s
  | .plainKeyboardByte b => receivePlainByte b s
  | .plainResponse _ => .next s
  | .notAControllerCommand b => .refused (.notAControllerCommand b)
  | .notADeviceCommand b => .refused (.notADeviceCommand b)

/-- One step. The reset input wins (70_reset_and_hazards.md R300). A sequence in progress goes on, by
one port transaction or register update at the grain of 00_scope.md R6 (`State.grain`, log 6); a
response byte it reads at the data port is decoded as the answer to its command and executed (R99;
log 12). An idle block takes the next word presented, decodes it and executes it; with none it stays
as it is (log 5). -/
def step (s : State) : Host.Outcome State Fault Refusal :=
  if s.host.resetLine then .next s.resetBlock
  else
    match s.ctl.upc with
    | .running _ rest =>
      match awaitedResponse rest s.env.answers with
      | some (w, answers) =>
        match decode s.cfg w with
        | .ok i => exec i { s with env := { s.env with answers := answers } }
        | .error _ => .next (advance s)
      | none => .next (advance s)
    | .idle =>
      match s.host.presented with
      | [] => .next s
      | w :: ws =>
        let s' := { s with host := { s.host with presented := ws } }
        match decode s.cfg w with
        | .ok i => exec i s'
        | .error r => stepRejected r s'

/-- The same instruction placed where `step` takes its next one: a word of the first three formats is
presented to an idle block, ahead of what is presented already; a controller response is the next
answer of a test operation that stands at its data read. The step then goes as far as the answers
allow, so that it runs the whole instruction. -/
def State.withFetchWord (s : State) (nbits w : Nat) : State := placeWord (tableWord nbits w) s

end Sys2Proof.Machine
end

