-- ==== Sys2Proof/Safety.lean ====
section
/-! DEFINITION. What the claims speak of: the exchanges with the environment that let an operation go
on (41_port_handshake.md), the effect of an exchange on the state, which states are well formed, and
which runs are safe. -/

namespace Sys2Proof.Safety

open Sys2Proof.Machine

/-- The status reads a wait makes (00_scope.md R15). -/
def statusReads (w : List Byte) : List Txn := w.map .readStatus

/-- Answers on which `WaitInputEmpty` ends: any number of status bytes with bit 1 set, then the first
with bit 1 clear (R135). -/
def InputWait (w : List Byte) : Prop :=
  ∃ busy last, w = busy ++ [last] ∧ (∀ b ∈ busy, b.getLsbD 1 = true) ∧ last.getLsbD 1 = false

/-- A status byte that ends `WaitCtlData`: bit 5 clear and bit 0 set (R141). -/
def responseReady (b : Byte) : Bool := !b.getLsbD 5 && b.getLsbD 0

/-- Answers on which the status loop of `WaitCtlData` ends (R141). -/
def ResponseWait (w : List Byte) : Prop :=
  ∃ busy last, w = busy ++ [last] ∧ (∀ b ∈ busy, responseReady b = false) ∧
    responseReady last = true

/-- One status read, and one data read more when bit 0 or bit 5 says that a byte is there (R140). -/
def StaleCheck (w : List Byte) (t : List Txn) : Prop :=
  (∃ s, w = [s] ∧ (s.getLsbD 5 || s.getLsbD 0) = false ∧ t = [.readStatus s]) ∨
  (∃ s d, w = [s, d] ∧ (s.getLsbD 5 || s.getLsbD 0) = true ∧ t = [.readStatus s, .readData d])

/-- The answers an exchange uses up and the transactions it makes. -/
structure Exchange where
  answers : List Byte
  trace : List Txn

/-- One exchange after another. -/
def Exchange.seq (x y : Exchange) : Exchange :=
  { answers := x.answers ++ y.answers, trace := x.trace ++ y.trace }

/-- No exchange. -/
def Exchange.none : Exchange := { answers := [], trace := [] }

/-- The exchange of `CtlCmd(c)` (R137). -/
def PlainExchange (c : Byte) (x : Exchange) : Prop :=
  ∃ w₁ w₂, InputWait w₁ ∧ InputWait w₂ ∧
    x = { answers := w₁ ++ w₂
          trace := statusReads w₁ ++ [.writeCommand c] ++ statusReads w₂ }

/-- The exchange of `CtlCmdData(c, d)` (R138). -/
def ParameterExchange (c d : Byte) (x : Exchange) : Prop :=
  ∃ w₁ w₂, InputWait w₁ ∧ InputWait w₂ ∧
    x = { answers := w₁ ++ w₂
          trace := statusReads w₁ ++ [.writeCommand c] ++ statusReads w₂ ++ [.writeData d] }

/-- The exchange of `CtlCmdResp(c)` whose response is `r` (R139). -/
def ResponseExchange (c r : Byte) (x : Exchange) : Prop :=
  ∃ w₀ t₀ w₁ w₂ w₃, StaleCheck w₀ t₀ ∧ InputWait w₁ ∧ InputWait w₂ ∧ ResponseWait w₃ ∧
    x = { answers := w₀ ++ w₁ ++ w₂ ++ w₃ ++ [r]
          trace := t₀ ++ statusReads w₁ ++ [.writeCommand c] ++ statusReads w₂ ++
            statusReads w₃ ++ [.readData r] }

/-- The exchange of `InitSequence()` on a command byte `cb` (42_controller_fsm.md R151). -/
def InitExchange (cb : Byte) (x : Exchange) : Prop :=
  ∃ x₁ x₂ x₃ x₄, PlainExchange 0xAD x₁ ∧ PlainExchange 0xA7 x₂ ∧ ResponseExchange 0x20 cb x₃ ∧
    ParameterExchange 0x60 (cb &&& 0xFC) x₄ ∧ x = ((x₁.seq x₂).seq x₃).seq x₄

/-- The read-modify-write of the command byte from `old` to `new` (20_memory.md R73). -/
def UpdateExchange (old new : Byte) (x : Exchange) : Prop :=
  ∃ x₁ x₂, ResponseExchange 0x20 old x₁ ∧ ParameterExchange 0x60 new x₂ ∧ x = x₁.seq x₂

/-- An exchange that happens only where a condition holds. -/
def Only (cond : Bool) (p : Exchange → Prop) (x : Exchange) : Prop :=
  if cond then p x else x = Exchange.none

/-- The exchange of `EnableSequence(d, irq)` when every selected test passes, on a command byte `cb`
(42_controller_fsm.md R161). -/
def EnableExchange (d : EnableDevice) (irq : Bool) (cb : Byte) (x : Exchange) : Prop :=
  ∃ x₁ x₂ x₃ x₄ x₅,
    Only (hasKeyboard d) (ResponseExchange 0xAB 0x00) x₁ ∧
    Only (hasAuxiliary d) (ResponseExchange 0xA9 0x00) x₂ ∧
    Only (hasKeyboard d) (PlainExchange 0xAE) x₃ ∧
    Only (hasAuxiliary d) (PlainExchange 0xA8) x₄ ∧
    Only irq (UpdateExchange cb (cb ||| interruptBits d)) x₅ ∧
    x = (((x₁.seq x₂).seq x₃).seq x₄).seq x₅

/-- The exchange of `EnableSequence(d, irq)` when a selected test fails: that of the tests up to and
with the failing one, whose interface and response byte it is (R161 steps 1 and 2). -/
def FailedTestExchange (d : EnableDevice) (which : TestedInterface) (r : Byte) (x : Exchange) :
    Prop :=
  match which with
  | .keyboard => hasKeyboard d = true ∧ ResponseExchange 0xAB r x
  | .auxiliary =>
    hasAuxiliary d = true ∧
      ∃ x₁ x₂, Only (hasKeyboard d) (ResponseExchange 0xAB 0x00) x₁ ∧
        ResponseExchange 0xA9 r x₂ ∧ x = x₁.seq x₂

/-- The state after an exchange: the answers used up, the transactions made. -/
def exchanged (s : State) (rest : List Byte) (t : List Txn) : State :=
  { s with env := { s.env with answers := rest, trace := s.env.trace ++ t } }

/-- The state with the result `r` on the host interface, everything else as it is. -/
def answered (s : State) (r : Result) : State :=
  { s with host := { s.host with result := some r } }

/-- The state with no result on the host interface: a primitive returns none (41_port_handshake.md). -/
def unanswered (s : State) : State := { s with host := { s.host with result := Option.none } }

/-- The state after `WaitInputEmpty` and `PortWrite(DATA, b)`, `w` being the status bytes read
(41_port_handshake.md R142). Where the byte goes is `State.writesData`'s affair (20_memory.md R63). -/
def keyboardWritten (s : State) (w rest : List Byte) (b : Byte) : State :=
  (exchanged s rest (statusReads w)).writesData b

/-- The state after an exchange of controller commands whose parameter bytes have all been written:
none is awaited at the data port any more (20_memory.md R63). -/
def commanded (s : State) (rest : List Byte) (t : List Txn) : State :=
  { s with
    env := { s.env with answers := rest, trace := s.env.trace ++ t, pending := none } }

/-- The state with the byte `b` stored at a controller RAM index, index 0 being the 8042 command byte
(R62). -/
def ramStored (s : State) (i : Nat) (b : Byte) : State :=
  { s with env := { s.env with ram := Memory.write s.env.ram i b } }

/-- The state with the byte `b` delivered to the auxiliary device (R63). -/
def auxWritten (s : State) (b : Byte) : State :=
  { s with env := { s.env with auxSent := s.env.auxSent ++ [b] } }

/-- The RAM index that the next data write would store to: that of the parameter command whose byte
is still awaited, if it addresses the RAM (R62, R63). -/
def parameterIndex (s : State) : Option Nat :=
  match s.env.pending with
  | none => none
  | some c => if c = 0xD4 then none else some (ramIndexOf c)

/-- `exec` answers a next state, and from it the sequence of the instruction runs on to `u`: to its end, or
to a wait for an answer that is not listed. Where one step of the model is not bounded it answers `u`
itself. So it holds for every `grain`, the one of 00_scope.md R6 too (log 6). -/
def RunsTo (i : Instr) (s u : State) : Prop :=
  (∃ t, exec i s = .next t ∧ runAll t = u) ∧ (s.grain = none → exec i s = .next u)

/-- The same of a step of the machine. -/
def StepsTo (s u : State) : Prop :=
  (∃ t, step s = .next t ∧ runAll t = u) ∧ (s.grain = none → step s = .next u)

/-- The block is between operations: a request is accepted (00_scope.md R8). -/
abbrev Idle (s : State) : Prop := s.ctl.upc = .idle

/-- The session gate is open (44_keyboard_session.md R238). -/
abbrev SessionOpen (s : State) : Prop :=
  s.ctl.state = .enabledDevices ∧ s.ctl.sel.getLsbD 0 = true

/-- The error of the closed session gate (R238). -/
def gateError (s : State) : Err :=
  if s.ctl.state = .enabledDevices then .deviceNotEnabled else .wrongState

/-- The keyboard bytes with a row of their own in the table, with the byte of each (30_encoding.md
R102). -/
def keyboardByte (cfg : Config) : Instr → Option Byte
  | .respAck => some 0xFA
  | .respResend => some 0xFE
  | .respEchoReply => some 0xEE
  | .respBatOk => some 0xAA
  | .respBatFail => some 0xFC
  | .respKeyDetectionOverrun => some cfg.overrunCode
  | .readStatus | .startInit | .setTranslation _ | .selfTest | .keyboardInterfaceTest
  | .auxInterfaceTest | .ramRead _ | .ramWrite _ _ | .cpuReset | .enableDevices _
  | .enableDevicesAndInterrupts _ | .sendToKeyboard _ | .sendToAuxiliaryDevice _ | .pollData
  | .disableDevices | .kbdReceive _ | .kbdDisable | .kbdSetDefaults | .kbdEnable | .kbdSetLeds _
  | .kbdSetTypematic _ | .kbdSelectScancodeSet _ | .kbdReadId | .kbdEcho | .ctlReadCommandByte
  | .ctlReadRam _ | .ctlWriteCommandByte _ | .ctlWriteRam _ _ | .ctlDisableAux | .ctlEnableAux
  | .ctlAuxTest | .ctlSelfTest | .ctlKbdTest | .ctlDisableKbd | .ctlEnableKbd | .ctlWriteToAux _
  | .ctlPulseOutput _ | .devSetIndicators _ | .devEcho | .devSelectScancodeSet _ | .devReadId
  | .devSetTypematic _ | .devEnable | .devDisable | .devSetDefaults | .respSelfTestPassed
  | .respInterfaceTestPassed | .respClockLineLow | .respClockLineHigh | .respDataLineLow
  | .respDataLineHigh => none

/-- The cursors of a variant (10_state.md R33). -/
def cursorsOf : Variant → List Cursor
  | .ackResponse => [.waitAck]
  | .echo => [.waitEcho]
  | .ackResponseWithReturnTwoBytes => [.waitAck, .waitByte1, .waitByte2]
  | .sendCommandAndData => [.waitAck1, .waitAck2]
  | .sendCommandAndDataSingleAck => [.waitAck1, .waitFollowing]
  | .sendCommandAndDataAndReceiveResponse => [.waitAck1, .waitAck2, .waitResponse]

/-- A command stands at a cursor of its variant (R33). -/
abbrev CursorLegal (c : Command) : Prop := c.cur ∈ cursorsOf c.variant

/-- The steps still to do of a running sequence. -/
def stepsLeft (s : State) : List Micro :=
  match s.ctl.upc with
  | .idle => []
  | .running _ rest => rest

/-- `ctl.sel` is 0b00 and `ctl.irq` 0 outside `EnabledDevices`, and `ctl.sel` names a device inside it
(10_state.md R22, R23). -/
def ControllerInv (s : State) : Prop :=
  (s.ctl.state ≠ .enabledDevices → s.ctl.sel = 0 ∧ s.ctl.irq = false) ∧
  (s.ctl.state = .enabledDevices → s.ctl.sel ≠ 0)

/-- The FIFO keeps its capacity (43_command_queue.md R193), it is empty whenever nothing is in flight
(10_state.md R36), and the in-flight command, now or after a step still to do, stands at a cursor of
its variant (R33). -/
def QueueInv (s : State) : Prop :=
  s.q.fifo.length ≤ s.cfg.queueCapacity ∧
  (s.q.inflight = none → s.q.fifo = []) ∧
  (∀ c, s.q.inflight = some c → CursorLegal c) ∧
  (∀ c, Micro.setInflight c ∈ stepsLeft s → CursorLegal c)

/-- The well-formed states: the controller's registers agree with each other, the queue is as it must
be, and the RAM record is in its canonical form. -/
def Inv (s : State) : Prop := ControllerInv s ∧ QueueInv s ∧ Memory.wf s.env.ram = true

/-- The result of an interface test that was answered `r` (42_controller_fsm.md R156, R157). -/
def testResult (which : TestedInterface) (r : Byte) : Result :=
  match interfaceTestMap r with
  | none => .ok .unit
  | some e => .err (.interfaceError which r e)

/-- The transaction is a port write. -/
def isWriteTxn : Txn → Bool
  | .readStatus _ => false
  | .readData _ => false
  | .writeCommand _ => true
  | .writeData _ => true

/-- The transaction is a status read that saw the input buffer empty. -/
def sawInputEmpty : Txn → Bool
  | .readStatus b => !b.getLsbD 1
  | .readData _ => false
  | .writeCommand _ => false
  | .writeData _ => false

/-- Every port write directly follows a status read that saw the input buffer empty; `waited` says
whether the transaction before the list was one (41_port_handshake.md R136). -/
def traceGuarded : Bool → List Txn → Bool
  | _, [] => true
  | waited, t :: ts => (!isWriteTxn t || waited) && traceGuarded (sawInputEmpty t) ts

/-- The last transaction made is a status read that saw the input buffer empty. -/
def justWaited (trace : List Txn) : Bool :=
  match trace.getLast? with
  | none => false
  | some t => sawInputEmpty t

/-- The micro-step is a port write. -/
def isWriteStep : Micro → Bool
  | .writeCommand _ => true
  | .writeData _ => true
  | .writeDataCb => true
  | .writeDataSaved => true
  | _ => false

/-- Every port write of a sequence directly follows a `WaitInputEmpty`; `waited` says whether one has
just ended (R136). -/
def stepsGuarded : Bool → List Micro → Bool
  | _, [] => true
  | waited, m :: ms => (!isWriteStep m || waited) && stepsGuarded (decide (m = .pollInput)) ms

/-- Never a write while the input buffer is full: so far, and by the steps still to do (R136,
70_reset_and_hazards.md R305). -/
def WritesGuarded (s : State) : Prop :=
  traceGuarded false s.env.trace = true ∧
  stepsGuarded (justWaited s.env.trace) (stepsLeft s) = true

/-- The bytes the block may write to the command port: the table of 30_encoding.md R95, of the pulse
range 0xFE only (R105(b)). -/
def commandByteLegal (c : Byte) : Bool :=
  (0x20 ≤ c.toNat && c.toNat ≤ 0x3F) || (0x60 ≤ c.toNat && c.toNat ≤ 0x7F) ||
  [0xA7, 0xA8, 0xA9, 0xAA, 0xAB, 0xAD, 0xAE, 0xD4, 0xFE].contains c.toNat

/-- Only legal controller command bytes were written, and only such are still to be written. -/
def CommandBytesLegal (s : State) : Prop :=
  (∀ c, Txn.writeCommand c ∈ s.env.trace → commandByteLegal c = true) ∧
  (∀ c, Micro.writeCommand c ∈ stepsLeft s → commandByteLegal c = true)

/-- The protocol states in which a host operation is legal (60_exceptions.md R288); `none` for an
instruction that is no host operation. -/
def legalStates : Instr → Option (List ProtocolState)
  | .readStatus => some [.initController, .devicesDisabled, .enabledDevices]
  | .startInit => some [.initController]
  | .setTranslation _ | .selfTest | .keyboardInterfaceTest | .auxInterfaceTest | .ramRead _
  | .ramWrite _ _ | .cpuReset | .enableDevices _ | .enableDevicesAndInterrupts _ =>
    some [.devicesDisabled]
  | .sendToKeyboard _ | .sendToAuxiliaryDevice _ | .pollData | .disableDevices | .kbdReceive _
  | .kbdDisable | .kbdSetDefaults | .kbdEnable | .kbdSetLeds _ | .kbdSetTypematic _
  | .kbdSelectScancodeSet _ | .kbdReadId | .kbdEcho => some [.enabledDevices]
  | .ctlReadCommandByte | .ctlReadRam _ | .ctlWriteCommandByte _ | .ctlWriteRam _ _
  | .ctlDisableAux | .ctlEnableAux | .ctlAuxTest | .ctlSelfTest | .ctlKbdTest | .ctlDisableKbd
  | .ctlEnableKbd | .ctlWriteToAux _ | .ctlPulseOutput _ => none
  | .devSetIndicators _ | .devEcho | .devSelectScancodeSet _ | .devReadId | .devSetTypematic _
  | .devEnable | .devDisable | .devSetDefaults => none
  | .respAck | .respResend | .respEchoReply | .respBatOk | .respBatFail
  | .respKeyDetectionOverrun | .respSelfTestPassed | .respInterfaceTestPassed | .respClockLineLow
  | .respClockLineHigh | .respDataLineLow | .respDataLineHigh => none

/-- The bit of `ctl.sel` that must be set for a host operation to address its device (R277, R288). -/
def deviceBit : Instr → Option Nat
  | .sendToKeyboard _ | .kbdReceive _ | .kbdDisable | .kbdSetDefaults | .kbdEnable | .kbdSetLeds _
  | .kbdSetTypematic _ | .kbdSelectScancodeSet _ | .kbdReadId | .kbdEcho => some 0
  | .sendToAuxiliaryDevice _ => some 1
  | .readStatus | .startInit | .setTranslation _ | .selfTest | .keyboardInterfaceTest
  | .auxInterfaceTest | .ramRead _ | .ramWrite _ _ | .cpuReset | .enableDevices _
  | .enableDevicesAndInterrupts _ | .pollData | .disableDevices | .ctlReadCommandByte
  | .ctlReadRam _ | .ctlWriteCommandByte _ | .ctlWriteRam _ _ | .ctlDisableAux | .ctlEnableAux
  | .ctlAuxTest | .ctlSelfTest | .ctlKbdTest | .ctlDisableKbd | .ctlEnableKbd | .ctlWriteToAux _
  | .ctlPulseOutput _ | .devSetIndicators _ | .devEcho | .devSelectScancodeSet _ | .devReadId
  | .devSetTypematic _ | .devEnable | .devDisable | .devSetDefaults | .respAck | .respResend
  | .respEchoReply | .respBatOk | .respBatFail | .respKeyDetectionOverrun | .respSelfTestPassed
  | .respInterfaceTestPassed | .respClockLineLow | .respClockLineHigh | .respDataLineLow
  | .respDataLineHigh => none

/-- The block's present mode allows the host operation (R288). -/
def Exposed (s : State) (i : Instr) : Prop :=
  (∀ l, legalStates i = some l → s.ctl.state ∈ l) ∧
  (∀ k, deviceBit i = some k → s.ctl.sel.getLsbD k = true)

/-- The operand of a host operation lies outside its legal range (60_exceptions.md R274). -/
def operandIllegal : Instr → Bool
  | .ramRead idx => idx == 0
  | .ramWrite idx _ => idx == 0
  | .enableDevices sel => sel == 0
  | .enableDevicesAndInterrupts sel => sel == 0
  | .kbdSetTypematic rate => rate.getLsbD 7
  | .kbdSelectScancodeSet n => !(n == 1 || n == 2 || n == 3)
  | .readStatus | .startInit | .setTranslation _ | .selfTest | .keyboardInterfaceTest
  | .auxInterfaceTest | .cpuReset | .sendToKeyboard _ | .sendToAuxiliaryDevice _ | .pollData
  | .disableDevices | .kbdReceive _ | .kbdDisable | .kbdSetDefaults | .kbdEnable | .kbdSetLeds _
  | .kbdReadId | .kbdEcho | .ctlReadCommandByte | .ctlReadRam _ | .ctlWriteCommandByte _
  | .ctlWriteRam _ _ | .ctlDisableAux | .ctlEnableAux | .ctlAuxTest | .ctlSelfTest | .ctlKbdTest
  | .ctlDisableKbd | .ctlEnableKbd | .ctlWriteToAux _ | .ctlPulseOutput _ | .devSetIndicators _
  | .devEcho | .devSelectScancodeSet _ | .devReadId | .devSetTypematic _ | .devEnable
  | .devDisable | .devSetDefaults | .respAck | .respResend | .respEchoReply | .respBatOk
  | .respBatFail | .respKeyDetectionOverrun | .respSelfTestPassed | .respInterfaceTestPassed
  | .respClockLineLow | .respClockLineHigh | .respDataLineLow | .respDataLineHigh => false

/-- The six responses of the controller (30_encoding.md R99) with their bytes. -/
def responseByte : Instr → Option Byte
  | .respSelfTestPassed => some 0x55
  | .respInterfaceTestPassed => some 0x00
  | .respClockLineLow => some 0x01
  | .respClockLineHigh => some 0x02
  | .respDataLineLow => some 0x03
  | .respDataLineHigh => some 0x04
  | .readStatus | .startInit | .setTranslation _ | .selfTest | .keyboardInterfaceTest
  | .auxInterfaceTest | .ramRead _ | .ramWrite _ _ | .cpuReset | .enableDevices _
  | .enableDevicesAndInterrupts _ | .sendToKeyboard _ | .sendToAuxiliaryDevice _ | .pollData
  | .disableDevices | .kbdReceive _ | .kbdDisable | .kbdSetDefaults | .kbdEnable | .kbdSetLeds _
  | .kbdSetTypematic _ | .kbdSelectScancodeSet _ | .kbdReadId | .kbdEcho | .ctlReadCommandByte
  | .ctlReadRam _ | .ctlWriteCommandByte _ | .ctlWriteRam _ _ | .ctlDisableAux | .ctlEnableAux
  | .ctlAuxTest | .ctlSelfTest | .ctlKbdTest | .ctlDisableKbd | .ctlEnableKbd | .ctlWriteToAux _
  | .ctlPulseOutput _ | .devSetIndicators _ | .devEcho | .devSelectScancodeSet _ | .devReadId
  | .devSetTypematic _ | .devEnable | .devDisable | .devSetDefaults | .respAck | .respResend
  | .respEchoReply | .respBatOk | .respBatFail | .respKeyDetectionOverrun => none

/-- The command record a device command queues: its variant, command byte and payload
(30_encoding.md R100). -/
def deviceCommand : Instr → Option (Variant × Byte × Option Byte)
  | .devSetIndicators p => some (.sendCommandAndData, 0xED, some p)
  | .devEcho => some (.echo, 0xEE, none)
  | .devSelectScancodeSet p =>
    if p = 0 then some (.sendCommandAndDataAndReceiveResponse, 0xF0, some 0)
    else some (.sendCommandAndData, 0xF0, some p)
  | .devReadId => some (.ackResponseWithReturnTwoBytes, 0xF2, none)
  | .devSetTypematic p => some (.sendCommandAndData, 0xF3, some p)
  | .devEnable => some (.ackResponse, 0xF4, none)
  | .devDisable => some (.ackResponse, 0xF5, none)
  | .devSetDefaults => some (.ackResponse, 0xF6, none)
  | .readStatus | .startInit | .setTranslation _ | .selfTest | .keyboardInterfaceTest
  | .auxInterfaceTest | .ramRead _ | .ramWrite _ _ | .cpuReset | .enableDevices _
  | .enableDevicesAndInterrupts _ | .sendToKeyboard _ | .sendToAuxiliaryDevice _ | .pollData
  | .disableDevices | .kbdReceive _ | .kbdDisable | .kbdSetDefaults | .kbdEnable | .kbdSetLeds _
  | .kbdSetTypematic _ | .kbdSelectScancodeSet _ | .kbdReadId | .kbdEcho | .ctlReadCommandByte
  | .ctlReadRam _ | .ctlWriteCommandByte _ | .ctlWriteRam _ _ | .ctlDisableAux | .ctlEnableAux
  | .ctlAuxTest | .ctlSelfTest | .ctlKbdTest | .ctlDisableKbd | .ctlEnableKbd | .ctlWriteToAux _
  | .ctlPulseOutput _ | .respAck | .respResend | .respEchoReply | .respBatOk | .respBatFail
  | .respKeyDetectionOverrun | .respSelfTestPassed | .respInterfaceTestPassed | .respClockLineLow
  | .respClockLineHigh | .respDataLineLow | .respDataLineHigh => none

/-- The command record a command-issuing operation queues (44_keyboard_session.md R240), but for
`kbd_select_scancode_set`, which queues two. -/
def issuedCommand : Instr → Option (Variant × Byte × Option Byte)
  | .kbdDisable => some (.ackResponse, 0xF5, none)
  | .kbdSetDefaults => some (.ackResponse, 0xF6, none)
  | .kbdEnable => some (.ackResponse, 0xF4, none)
  | .kbdSetLeds leds => some (.sendCommandAndData, 0xED, some leds)
  | .kbdSetTypematic rate => some (.sendCommandAndData, 0xF3, some rate)
  | .kbdReadId => some (.ackResponseWithReturnTwoBytes, 0xF2, none)
  | .kbdEcho => some (.echo, 0xEE, none)
  | .readStatus | .startInit | .setTranslation _ | .selfTest | .keyboardInterfaceTest
  | .auxInterfaceTest | .ramRead _ | .ramWrite _ _ | .cpuReset | .enableDevices _
  | .enableDevicesAndInterrupts _ | .sendToKeyboard _ | .sendToAuxiliaryDevice _ | .pollData
  | .disableDevices | .kbdReceive _ | .kbdSelectScancodeSet _ | .ctlReadCommandByte
  | .ctlReadRam _ | .ctlWriteCommandByte _ | .ctlWriteRam _ _ | .ctlDisableAux | .ctlEnableAux
  | .ctlAuxTest | .ctlSelfTest | .ctlKbdTest | .ctlDisableKbd | .ctlEnableKbd | .ctlWriteToAux _
  | .ctlPulseOutput _ | .devSetIndicators _ | .devEcho | .devSelectScancodeSet _ | .devReadId
  | .devSetTypematic _ | .devEnable | .devDisable | .devSetDefaults | .respAck | .respResend
  | .respEchoReply | .respBatOk | .respBatFail | .respKeyDetectionOverrun | .respSelfTestPassed
  | .respInterfaceTestPassed | .respClockLineLow | .respClockLineHigh | .respDataLineLow
  | .respDataLineHigh => none

/-- The controller commands of the plain class, with their bytes (30_encoding.md R95, R98). -/
def plainByte : Instr → Option Byte
  | .ctlDisableAux => some 0xA7
  | .ctlEnableAux => some 0xA8
  | .ctlDisableKbd => some 0xAD
  | .ctlEnableKbd => some 0xAE
  | .ctlPulseOutput mask => if mask = 0b1110 then some 0xFE else none
  | .readStatus | .startInit | .setTranslation _ | .selfTest | .keyboardInterfaceTest
  | .auxInterfaceTest | .ramRead _ | .ramWrite _ _ | .cpuReset | .enableDevices _
  | .enableDevicesAndInterrupts _ | .sendToKeyboard _ | .sendToAuxiliaryDevice _ | .pollData
  | .disableDevices | .kbdReceive _ | .kbdDisable | .kbdSetDefaults | .kbdEnable | .kbdSetLeds _
  | .kbdSetTypematic _ | .kbdSelectScancodeSet _ | .kbdReadId | .kbdEcho | .ctlReadCommandByte
  | .ctlReadRam _ | .ctlWriteCommandByte _ | .ctlWriteRam _ _ | .ctlAuxTest | .ctlSelfTest
  | .ctlKbdTest | .ctlWriteToAux _ | .devSetIndicators _ | .devEcho | .devSelectScancodeSet _
  | .devReadId | .devSetTypematic _ | .devEnable | .devDisable | .devSetDefaults | .respAck
  | .respResend | .respEchoReply | .respBatOk | .respBatFail | .respKeyDetectionOverrun
  | .respSelfTestPassed | .respInterfaceTestPassed | .respClockLineLow | .respClockLineHigh
  | .respDataLineLow | .respDataLineHigh => none

/-- The controller commands of the response class, with their bytes. -/
def responseCommandByte : Instr → Option Byte
  | .ctlReadCommandByte => some 0x20
  | .ctlReadRam idx => some (0x20 + idx.zeroExtend 8)
  | .ctlAuxTest => some 0xA9
  | .ctlSelfTest => some 0xAA
  | .ctlKbdTest => some 0xAB
  | .readStatus | .startInit | .setTranslation _ | .selfTest | .keyboardInterfaceTest
  | .auxInterfaceTest | .ramRead _ | .ramWrite _ _ | .cpuReset | .enableDevices _
  | .enableDevicesAndInterrupts _ | .sendToKeyboard _ | .sendToAuxiliaryDevice _ | .pollData
  | .disableDevices | .kbdReceive _ | .kbdDisable | .kbdSetDefaults | .kbdEnable | .kbdSetLeds _
  | .kbdSetTypematic _ | .kbdSelectScancodeSet _ | .kbdReadId | .kbdEcho | .ctlWriteCommandByte _
  | .ctlWriteRam _ _ | .ctlDisableAux | .ctlEnableAux | .ctlDisableKbd | .ctlEnableKbd
  | .ctlWriteToAux _ | .ctlPulseOutput _ | .devSetIndicators _ | .devEcho
  | .devSelectScancodeSet _ | .devReadId | .devSetTypematic _ | .devEnable | .devDisable
  | .devSetDefaults | .respAck | .respResend | .respEchoReply | .respBatOk | .respBatFail
  | .respKeyDetectionOverrun | .respSelfTestPassed | .respInterfaceTestPassed | .respClockLineLow
  | .respClockLineHigh | .respDataLineLow | .respDataLineHigh => none

/-- The bytes a row of the checker writes to the keyboard: its `DevWrite`, or the command byte of the
next queued command when it finishes the one in flight (43_command_queue.md R207, R208). No row does
both. -/
def rowBytes (s : State) (row : CheckerRow) : List Byte :=
  match row.ending with
  | .finished => (s.q.fifo.map Command.cmd).take 1
  | .inProgress => row.write.toList
  | .unexpected => []

/-- The queue after a row: the command with its next cursor and captures, the next queued command
started or the slot empty, or nothing changed (R194, R208, R210). -/
def rowQueue (s : State) (row : CheckerRow) : Queue :=
  match row.ending with
  | .inProgress => { s.q with inflight := some row.after }
  | .unexpected => s.q
  | .finished =>
    match s.q.fifo with
    | [] => { fifo := [], inflight := none }
    | n :: ns => { fifo := ns, inflight := some { n with cur := firstCursor n.variant } }

/-- The port writes of a row: none, or one byte to the keyboard after a wait whose status bytes are
`w`. -/
def rowWritten (s : State) (row : CheckerRow) (w rest : List Byte) : State :=
  match rowBytes s row with
  | [] => s
  | d :: _ => keyboardWritten s w rest d

/-- The answers are those a row needs: none without a write, those of one wait with one. -/
def RowAnswers (s : State) (row : CheckerRow) (w rest : List Byte) : Prop :=
  s.env.answers = w ++ rest ∧ (if rowBytes s row = [] then w = [] else InputWait w)

/-- The state after a row, but for the result. -/
def rowDone (s : State) (row : CheckerRow) (w rest : List Byte) : State :=
  { rowWritten s row w rest with q := rowQueue s row }

/-- The external decoder was called on `b` and its answer returned (44_keyboard_session.md R231). -/
def decoded (s : State) (b : Byte) : State :=
  answered { s with decoder := (Config.scancodeDecode s.decoder b).2 }
    (toEvent (Config.scancodeDecode s.decoder b).1)

/-- BAT completion (R233): the marker is `Enabled`, the decoder decodes set 2, the rest of the
decoder's state after its reset being `progress`, and the event is the result. -/
def batCompleted (s : State) (progress : Nat) : State :=
  answered
    { s with
      ks := { s.ks with marker := .enabled }
      decoder := { table := .set2, progress := progress } }
    (.ok (.event .batCompleted))

/-- `ks.marker` after a finished command (R241). -/
def markerAfter (m : Marker) (c : Command) : Marker :=
  if c.variant = .ackResponse ∧ c.cmd = 0xF5 then .disabled
  else if c.variant = .ackResponse ∧ c.cmd = 0xF4 then .enabled
  else m

/-- What the session makes of the queue's status (R235, R236, R241). -/
def concluded (s : State) : QueueStatus → State
  | .commandInProgress => answered s (.ok .noEvent)
  | .unexpectedData b => decoded s b
  | .commandFinished c =>
    match c.variant with
    | .ackResponse =>
      answered { s with ks := { s.ks with marker := markerAfter s.ks.marker c } } (.ok .noEvent)
    | .echo => answered s (.ok (.event .echoReceived))
    | .ackResponseWithReturnTwoBytes => answered s (.ok (.event (.id c.r1 c.r2)))
    | .sendCommandAndData => answered s (.ok .noEvent)
    | .sendCommandAndDataSingleAck => decoded s c.r1
    | .sendCommandAndDataAndReceiveResponse => answered s (.ok (.event (.scancodeSet c.r1)))

/-- A byte the session takes for itself before the queue sees it (R232, R233). -/
def isSentinel (cfg : Config) (b : Byte) : Bool := b == cfg.overrunCode || b == 0xFC || b == 0xAA

/-- What an instruction may write besides `ctl.upc`, the port trace, the answers it reads, the
pending parameter command and its result. -/
structure Footprint where
  /-- `ctl.state`, `ctl.sel`, `ctl.irq`. -/
  mode : Bool := false
  cb : Bool := false
  saved : Bool := false
  resp : Bool := false
  /-- `q.fifo` and `q.inflight`. -/
  queue : Bool := false
  marker : Bool := false
  decoder : Bool := false
  /-- The RAM index it stores to, computed as the meaning does, from the command byte. -/
  stored : Option Nat := none
  kbdSent : Bool := false
  auxSent : Bool := false
  freeCount : Bool := false

/-- The footprint of each instruction, from the 'state written' of its rule. The six controller
responses go on with the operation that awaits them and have no footprint of their own. -/
def footprint : Instr → Footprint
  | .startInit => { mode := true, cb := true, resp := true, stored := some (ramIndexOf 0x60) }
  | .setTranslation _ => { cb := true, resp := true, stored := some (ramIndexOf 0x60) }
  | .selfTest => { saved := true, resp := true, stored := some (ramIndexOf 0x60) }
  | .keyboardInterfaceTest => { resp := true }
  | .auxInterfaceTest => { resp := true }
  | .ramRead _ => { resp := true }
  | .ramWrite idx _ => { stored := some (ramIndexOf (0x60 + idx.zeroExtend 8)) }
  | .enableDevices _ => { mode := true, resp := true }
  | .enableDevicesAndInterrupts _ =>
    { mode := true, cb := true, resp := true, stored := some (ramIndexOf 0x60) }
  | .sendToKeyboard _ => { kbdSent := true }
  | .sendToAuxiliaryDevice _ => { auxSent := true }
  | .disableDevices => { mode := true, cb := true, resp := true, stored := some (ramIndexOf 0x60) }
  | .kbdReceive _ => { queue := true, marker := true, decoder := true, kbdSent := true }
  | .kbdDisable | .kbdSetDefaults | .kbdEnable | .kbdSetLeds _ | .kbdSetTypematic _
  | .kbdSelectScancodeSet _ | .kbdReadId | .kbdEcho =>
    { queue := true, kbdSent := true, freeCount := true }
  | .ctlReadCommandByte | .ctlReadRam _ | .ctlAuxTest | .ctlSelfTest | .ctlKbdTest =>
    { resp := true }
  | .ctlWriteCommandByte _ => { stored := some (ramIndexOf 0x60) }
  | .ctlWriteRam idx _ => { stored := some (ramIndexOf (writeRamByte idx)) }
  | .ctlWriteToAux _ => { auxSent := true }
  | .devSetIndicators _ | .devEcho | .devSelectScancodeSet _ | .devReadId | .devSetTypematic _
  | .devEnable | .devDisable | .devSetDefaults =>
    { queue := true, kbdSent := true, freeCount := true }
  | .respAck | .respResend | .respEchoReply =>
    { queue := true, marker := true, decoder := true, kbdSent := true }
  | .respBatOk => { marker := true, decoder := true }
  | .readStatus | .cpuReset | .pollData | .ctlDisableAux | .ctlEnableAux | .ctlDisableKbd
  | .ctlEnableKbd | .ctlPulseOutput _ | .respBatFail | .respKeyDetectionOverrun
  | .respSelfTestPassed | .respInterfaceTestPassed | .respClockLineLow | .respClockLineHigh
  | .respDataLineLow | .respDataLineHigh => { }

/-- The frame: what lies outside a footprint is as it was. The parameters, the bound on one step, the
presented words and the reset input lie outside every footprint, and so does every RAM index but the one stored to. Where
a keyboard byte is written while a parameter command still awaits its byte (after a reset in the
middle of an operation, 70_reset_and_hazards.md R302), the byte goes where that command takes it:
the RAM index of `parameterIndex`, or the auxiliary device after 0xD4. -/
def Framed (f : Footprint) (s t : State) : Prop :=
  t.cfg = s.cfg ∧ t.grain = s.grain ∧
  t.host.presented = s.host.presented ∧ t.host.resetLine = s.host.resetLine ∧
  (f.mode = false → t.ctl.state = s.ctl.state ∧ t.ctl.sel = s.ctl.sel ∧ t.ctl.irq = s.ctl.irq) ∧
  (f.cb = false → t.ctl.cb = s.ctl.cb) ∧
  (f.saved = false → t.ctl.saved = s.ctl.saved) ∧
  (f.resp = false → t.ctl.resp = s.ctl.resp) ∧
  (f.queue = false → t.q = s.q) ∧
  (f.marker = false → t.ks = s.ks) ∧
  (f.decoder = false → t.decoder = s.decoder) ∧
  (∀ a, f.stored ≠ some a → (f.kbdSent = true → parameterIndex s ≠ some a) →
    Memory.read t.env.ram a = Memory.read s.env.ram a) ∧
  (f.kbdSent = false → t.env.kbdSent = s.env.kbdSent) ∧
  (f.auxSent = false → (f.kbdSent = true → s.env.pending ≠ some 0xD4) →
    t.env.auxSent = s.env.auxSent) ∧
  (f.freeCount = false → t.freeCount = s.freeCount)

/-- The host operations of the status decoder and the controller FSM. -/
def isControllerOp : Instr → Bool
  | .readStatus | .startInit | .setTranslation _ | .selfTest | .keyboardInterfaceTest
  | .auxInterfaceTest | .ramRead _ | .ramWrite _ _ | .cpuReset | .enableDevices _
  | .enableDevicesAndInterrupts _ | .sendToKeyboard _ | .sendToAuxiliaryDevice _ | .pollData
  | .disableDevices => true
  | .kbdReceive _ | .kbdDisable | .kbdSetDefaults | .kbdEnable | .kbdSetLeds _
  | .kbdSetTypematic _ | .kbdSelectScancodeSet _ | .kbdReadId | .kbdEcho | .ctlReadCommandByte
  | .ctlReadRam _ | .ctlWriteCommandByte _ | .ctlWriteRam _ _ | .ctlDisableAux | .ctlEnableAux
  | .ctlAuxTest | .ctlSelfTest | .ctlKbdTest | .ctlDisableKbd | .ctlEnableKbd | .ctlWriteToAux _
  | .ctlPulseOutput _ | .devSetIndicators _ | .devEcho | .devSelectScancodeSet _ | .devReadId
  | .devSetTypematic _ | .devEnable | .devDisable | .devSetDefaults | .respAck | .respResend
  | .respEchoReply | .respBatOk | .respBatFail | .respKeyDetectionOverrun | .respSelfTestPassed
  | .respInterfaceTestPassed | .respClockLineLow | .respClockLineHigh | .respDataLineLow
  | .respDataLineHigh => false

/-- The controller commands. -/
def isControllerCommand : Instr → Bool
  | .ctlReadCommandByte | .ctlReadRam _ | .ctlWriteCommandByte _ | .ctlWriteRam _ _
  | .ctlDisableAux | .ctlEnableAux | .ctlAuxTest | .ctlSelfTest | .ctlKbdTest | .ctlDisableKbd
  | .ctlEnableKbd | .ctlWriteToAux _ | .ctlPulseOutput _ => true
  | .readStatus | .startInit | .setTranslation _ | .selfTest | .keyboardInterfaceTest
  | .auxInterfaceTest | .ramRead _ | .ramWrite _ _ | .cpuReset | .enableDevices _
  | .enableDevicesAndInterrupts _ | .sendToKeyboard _ | .sendToAuxiliaryDevice _ | .pollData
  | .disableDevices | .kbdReceive _ | .kbdDisable | .kbdSetDefaults | .kbdEnable | .kbdSetLeds _
  | .kbdSetTypematic _ | .kbdSelectScancodeSet _ | .kbdReadId | .kbdEcho | .devSetIndicators _
  | .devEcho | .devSelectScancodeSet _ | .devReadId | .devSetTypematic _ | .devEnable
  | .devDisable | .devSetDefaults | .respAck | .respResend | .respEchoReply | .respBatOk
  | .respBatFail | .respKeyDetectionOverrun | .respSelfTestPassed | .respInterfaceTestPassed
  | .respClockLineLow | .respClockLineHigh | .respDataLineLow | .respDataLineHigh => false

/-- The session's operations, the device commands, and the bytes the checker and the session act
on. -/
def isSessionInstr : Instr → Bool
  | .kbdReceive _ | .kbdDisable | .kbdSetDefaults | .kbdEnable | .kbdSetLeds _
  | .kbdSetTypematic _ | .kbdSelectScancodeSet _ | .kbdReadId | .kbdEcho
  | .devSetIndicators _ | .devEcho | .devSelectScancodeSet _ | .devReadId | .devSetTypematic _
  | .devEnable | .devDisable | .devSetDefaults
  | .respAck | .respResend | .respEchoReply | .respBatOk | .respBatFail
  | .respKeyDetectionOverrun => true
  | .readStatus | .startInit | .setTranslation _ | .selfTest | .keyboardInterfaceTest
  | .auxInterfaceTest | .ramRead _ | .ramWrite _ _ | .cpuReset | .enableDevices _
  | .enableDevicesAndInterrupts _ | .sendToKeyboard _ | .sendToAuxiliaryDevice _ | .pollData
  | .disableDevices | .ctlReadCommandByte | .ctlReadRam _ | .ctlWriteCommandByte _
  | .ctlWriteRam _ _ | .ctlDisableAux | .ctlEnableAux | .ctlAuxTest | .ctlSelfTest | .ctlKbdTest
  | .ctlDisableKbd | .ctlEnableKbd | .ctlWriteToAux _ | .ctlPulseOutput _ | .respSelfTestPassed
  | .respInterfaceTestPassed | .respClockLineLow | .respClockLineHigh | .respDataLineLow
  | .respDataLineHigh => false

/-- More answers of the environment, after those listed. -/
def fed (s : State) (bs : List Byte) : State :=
  { s with env := { s.env with answers := s.env.answers ++ bs } }

/-- The transitions of the controller FSM (42_controller_fsm.md R174): which instruction changes
`ctl.state`, `ctl.sel` and `ctl.irq`, from where and to what. -/
def Transition (i : Instr) (s t : State) : Prop :=
  match i with
  | .startInit =>
    s.ctl.state = .initController ∧
      t.ctl.state = .devicesDisabled ∧ t.ctl.sel = 0 ∧ t.ctl.irq = false
  | .enableDevices sel =>
    s.ctl.state = .devicesDisabled ∧ sel ≠ 0 ∧
      t.ctl.state = .enabledDevices ∧ t.ctl.sel = sel ∧ t.ctl.irq = false
  | .enableDevicesAndInterrupts sel =>
    s.ctl.state = .devicesDisabled ∧ sel ≠ 0 ∧
      t.ctl.state = .enabledDevices ∧ t.ctl.sel = sel ∧ t.ctl.irq = true
  | .disableDevices =>
    s.ctl.state = .enabledDevices ∧
      t.ctl.state = .devicesDisabled ∧ t.ctl.sel = 0 ∧ t.ctl.irq = false
  | _ => False

/-- `ctl.state`, `ctl.sel` and `ctl.irq` are as they were. -/
def SameMode (s t : State) : Prop :=
  t.ctl.state = s.ctl.state ∧ t.ctl.sel = s.ctl.sel ∧ t.ctl.irq = s.ctl.irq

/-- The step enters a protocol state. -/
def isEntry : Micro → Bool
  | .enterDisabled => true
  | .enterEnabled _ _ => true
  | _ => false

/-- The operation running may make that entry from that protocol state (R174). -/
def EntryLegal (op : Option Instr) (st : ProtocolState) : Micro → Prop
  | .enterDisabled =>
    (op = some .startInit ∧ st = .initController) ∨
      (op = some .disableDevices ∧ st = .enabledDevices)
  | .enterEnabled d irq =>
    st = .devicesDisabled ∧
      op = some (if irq then .enableDevicesAndInterrupts (selectorMask d)
        else .enableDevices (selectorMask d))
  | _ => True

/-- A running operation has at most one entry still to make, and it is one it may make (R21: at the
last step of a successful transition operation). -/
def TransitionInv (s : State) : Prop :=
  match s.ctl.upc with
  | .idle => True
  | .running op rest =>
    (rest.countP isEntry ≤ 1) ∧ ∀ m ∈ rest, EntryLegal op s.ctl.state m

/-- The instruction that a step runs: the operation in progress, or the one the next presented word
stands for. -/
def RunsInstr (s : State) (i : Instr) : Prop :=
  match s.ctl.upc with
  | .running op _ => op = some i
  | .idle => ∃ w ws, s.host.presented = w :: ws ∧ decode s.cfg w = .ok i

/-- Two status bytes that steer every wait and test alike: bits 0, 1 and 5 agree (10_state.md R28). -/
def SteerAlike (b b' : Byte) : Prop :=
  b.getLsbD 0 = b'.getLsbD 0 ∧ b.getLsbD 1 = b'.getLsbD 1 ∧ b.getLsbD 5 = b'.getLsbD 5

end Sys2Proof.Safety
end

