-- ==== Sys2Proof/Certificates/Slice0/Obligations.lean ====
section
/-! DEFINITION. The statements for the provers. Each says what an instruction or the machine does by
the numbered rules of spec/; the exchanges with the environment they speak of are those of
Sys2Proof/Safety.lean. A run of `exec` to its end (`RunsTo`: `exec` answers a next state, and the sequence
started runs on from it to the state named, however much of it one step may do) is stated under the answers
that let it end; the answers are any that the rules admit. -/

open Sys2Proof Sys2Proof.Machine Sys2Proof.Safety

/-! Reset, fetch and decoding. -/

/-- The reset values (10_state.md R40, 70_reset_and_hazards.md R301): the state after reset holds them,
and from every state, in the middle of an operation too (R302), the reset input puts the block's own
state at them, makes no port transaction, and leaves the environment, the parameters and the scancode
decoder as they were. `ctl.cb`, `ctl.saved` and `ctl.resp` are unspecified there and left open here.
That one step takes the whole reset, and that it keeps the presented words and the model's own fields,
is the model's choice (log 16). -/
def Obligations.ResetValues : Prop :=
  (State.reset.ctl.state = .initController ∧ State.reset.ctl.sel = 0 ∧
    State.reset.ctl.irq = false ∧ State.reset.ctl.upc = .idle ∧
    State.reset.q.fifo = [] ∧ State.reset.q.inflight = none ∧
    State.reset.ks.marker = .enabled ∧ State.reset.env.trace = []) ∧
  ∀ s : State, s.host.resetLine = true →
    ∃ t, step s = .next t ∧
      t.ctl.state = .initController ∧ t.ctl.sel = 0 ∧ t.ctl.irq = false ∧ t.ctl.upc = .idle ∧
      t.q.fifo = [] ∧ t.q.inflight = none ∧ t.ks.marker = .enabled ∧
      t.env = s.env ∧ t.cfg = s.cfg ∧ t.decoder = s.decoder ∧
      t.host.presented = s.host.presented ∧ t.freeCount = s.freeCount ∧ t.grain = s.grain

/-- A step of an idle block runs the instruction its next presented word decodes to. The rest is the
model's choice: that the words stand in a list from which a step takes the next (log 7), that a step of an
idle block with none presented changes nothing (log 5), and that the response byte a running block reads
at the data port is decoded as the answer to its command and executed as an instruction (log 12). -/
def Obligations.StepRunsDecoded : Prop :=
  (∀ (s : State) (w : Presented) (ws : List Presented) (i : Instr),
    s.host.resetLine = false → Idle s → s.host.presented = w :: ws → decode s.cfg w = .ok i →
      step s = exec i { s with host := { s.host with presented := ws } }) ∧
  (∀ s : State, s.host.resetLine = false → Idle s → s.host.presented = [] → step s = .next s) ∧
  (∀ (s : State) (op : Option Instr) (c r : Byte) (p : List Micro) (bs : List Byte) (i : Instr),
    s.host.resetLine = false → s.ctl.upc = .running op (.takeResponse c :: p) →
      s.env.answers = r :: bs → decode s.cfg (.controllerResponse c r) = .ok i →
      step s = exec i { s with env := { s.env with answers := bs } })

/-- A request whose operation code is not in the table of 30_encoding.md R92 (the code 0x39 among
them) is answered with `Err(UnknownOperation)`; nothing else changes (R105(a)). -/
def Obligations.UnknownOperationAnswered : Prop :=
  ∀ (s : State) (op a b : Byte) (ws : List Presented),
    s.host.resetLine = false → Idle s → s.host.presented = .request (requestWord op a b) :: ws →
    op.toNat ∉ [0x00, 0x01, 0x10, 0x11, 0x12, 0x13, 0x14, 0x15, 0x16, 0x17, 0x18, 0x20, 0x21, 0x22,
      0x23, 0x30, 0x31, 0x32, 0x33, 0x34, 0x35, 0x36, 0x37, 0x38] →
    step s = .next (answered { s with host := { s.host with presented := ws } }
      (.err .unknownOperation))

/-- Words written out from the encodings of 30_encoding.md, one or two of each format. -/
def Obligations.ListedWordsDecode : Prop :=
  ∀ cfg : Config,
    decode cfg (.request 0x15057E) = .ok (.ramWrite 0x05 0x7E) ∧
    decode cfg (.request 0x170100) = .ok (.enableDevices 0b01) ∧
    decode cfg (.request 0x340200) = .ok (.kbdSetLeds 0x02) ∧
    decode cfg (.controllerCommand 0x3F 0x00) = .ok (.ctlReadRam 0x1F) ∧
    decode cfg (.controllerCommand 0x60 0x44) = .ok (.ctlWriteCommandByte 0x44) ∧
    decode cfg (.deviceCommand 0xED 0x02) = .ok (.devSetIndicators 0x02) ∧
    decode cfg (.controllerResponse 0xAB 0x02) = .ok .respClockLineHigh

/-- Decoding the word of a well-formed instruction gives the instruction back, every operand at every
value: no bit of an encoding is dropped (30_encoding.md R91, R92, R95 to R97, R99, R100, R102). -/
def Obligations.DecodeEncodeAgree : Prop :=
  ∀ (cfg : Config) (i : Instr), i.wellFormed cfg = true → decode cfg (encode cfg i) = .ok i

/-- Whatever the decoder gives is a well-formed instruction, but for the pulse commands that the block
never emits (30_encoding.md R97, R105(b)). -/
def Obligations.DecodedIsWellFormed : Prop :=
  ∀ (cfg : Config) (w : Presented) (i : Instr), decode cfg w = .ok i →
    i.wellFormed cfg = true ∨ ∃ mask, mask ≠ 0b1110 ∧ i = .ctlPulseOutput mask

/-! What is read out of a byte. -/

/-- The status decoder, field by field (40_status_decoder.md R121 to R126), with the precedence of
bit 5 (R123), the exclusivity of the owners (R129), and bit 3 without effect (R127). -/
def Obligations.StatusDecoder : Prop :=
  ∀ (level : Bool) (b : Byte),
    ((decodeStatus level b).parity = .err ↔ b.getLsbD 7 = true) ∧
    ((decodeStatus level b).timeout = b.getLsbD 6) ∧
    ((decodeStatus level b).password = true ↔ b.getLsbD 4 = level) ∧
    ((decodeStatus level b).systemFlag = b.getLsbD 2) ∧
    ((decodeStatus level b).inputFull = b.getLsbD 1) ∧
    (b.getLsbD 5 = true → (decodeStatus level b).data = some .auxiliaryDevice) ∧
    (b.getLsbD 5 = false → b.getLsbD 0 = true →
      (decodeStatus level b).data = some .keyboardOrCommandController) ∧
    (b.getLsbD 5 = false → b.getLsbD 0 = false → (decodeStatus level b).data = none) ∧
    ∀ b' : Byte, (∀ i, i ≠ 3 → b.getLsbD i = b'.getLsbD i) →
      decodeStatus level b = decodeStatus level b'

/-- `InterfaceTestMap` (42_controller_fsm.md R155), total and the same for both interfaces: no
interface is an argument of it. -/
def Obligations.InterfaceTestMapTable : Prop :=
  interfaceTestMap 0x00 = none ∧ interfaceTestMap 0x01 = some .clockLineLow ∧
  interfaceTestMap 0x02 = some .clockLineHigh ∧ interfaceTestMap 0x03 = some .dataLineLow ∧
  interfaceTestMap 0x04 = some .dataLineHigh ∧
  ∀ r : Byte, 0x05 ≤ r.toNat → interfaceTestMap r = some (.unknownValue r)

/-- Of a status byte only bits 0, 1 and 5 steer the block (10_state.md R28): on bytes that agree in
them every status read of a wait or of a test does the same, and only the trace shows the difference.
So the parity and time-out flags are acted on nowhere (70_reset_and_hazards.md R317). -/
def Obligations.StatusBitsThatSteer : Prop :=
  ∀ (op : Option Instr) (m : Micro) (p : List Micro) (s : State) (b b' : Byte) (bs : List Byte),
    m = .pollInput ∨ m = .pollStale ∨ (∃ c, m = .pollResponse c) ∨ m = .pollOwner →
    SteerAlike b b' →
    ∃ t : State,
      microExec op m p { s with env := { s.env with answers := b :: bs } } =
        some { t with env := { t.env with trace := s.env.trace ++ [.readStatus b] } } ∧
      microExec op m p { s with env := { s.env with answers := b' :: bs } } =
        some { t with env := { t.env with trace := s.env.trace ++ [.readStatus b'] } }

/-- The codes of the errors (60_exceptions.md R271) and of the keyboard events
(44_keyboard_session.md R237). -/
def Obligations.ErrorAndEventCodes : Prop :=
  (errorCode .wrongState = 0x01 ∧ errorCode .badOperand = 0x02 ∧
    errorCode .unknownOperation = 0x03 ∧ errorCode .deviceNotEnabled = 0x20 ∧
    errorCode .queueFull = 0x30 ∧ errorCode .keyDetectionOverrun = 0x40 ∧
    errorCode .batFailed = 0x41) ∧
  (∀ r e, errorCode (.interfaceError .keyboard r e) = 0x10) ∧
  (∀ r e, errorCode (.interfaceError .auxiliary r e) = 0x11) ∧
  (∀ r, errorCode (.selfTestFailed r) = 0x12) ∧
  (∀ c, errorCode (.queueFullCommand c) = 0x30) ∧
  (∀ e, errorCode (.decode e) = 0x42) ∧
  eventCode none = 0x00 ∧ (∀ ev, eventCode (some (.key ev)) = 0x01) ∧
  eventCode (some .batCompleted) = 0x02 ∧ (∀ b1 b2, eventCode (some (.id b1 b2)) = 0x03) ∧
  (∀ b, eventCode (some (.scancodeSet b)) = 0x04) ∧ eventCode (some .echoReceived) = 0x05

/-! The operations of the status decoder and of the controller FSM, each to its end. -/

/-- `read_status` (40_status_decoder.md R128): one status read, in every protocol state. -/
def Obligations.ReadStatusResult : Prop :=
  ∀ (s : State) (b : Byte) (rest : List Byte), Idle s → s.env.answers = b :: rest →
    RunsTo .readStatus s
      (answered (exchanged s rest [.readStatus b])
        (.ok (.status (decodeStatus s.cfg.passwordActiveLevel b))))

/-- `start_init` (42_controller_fsm.md R151): the command byte `cb` is written back with bits 0 and 1
clear. -/
def Obligations.StartInitResult : Prop :=
  ∀ (s : State) (cb : Byte) (x : Exchange) (rest : List Byte),
    Idle s → s.ctl.state = .initController → InitExchange cb x →
    s.env.answers = x.answers ++ rest →
    RunsTo .startInit s
      (answered
        { ramStored (commanded s rest x.trace) 0 (cb &&& 0xFC) with
          ctl := { s.ctl with
            state := .devicesDisabled, sel := 0, irq := false, cb := cb &&& 0xFC, resp := cb } }
        (.ok .unit))

/-- `set_translation en` (R153): bit 6 of the command byte becomes `en`, the other bits are written
back as read. -/
def Obligations.SetTranslationResult : Prop :=
  ∀ (s : State) (en : Bool) (old new : Byte) (x : Exchange) (rest : List Byte),
    Idle s → s.ctl.state = .devicesDisabled →
    (∀ k, k < 8 → new.getLsbD k = if k = 6 then en else old.getLsbD k) →
    UpdateExchange old new x → s.env.answers = x.answers ++ rest →
    RunsTo (.setTranslation en) s
      (answered
        { ramStored (commanded s rest x.trace) 0 new with
          ctl := { s.ctl with cb := new, resp := old } }
        (.ok .unit))

/-- `self_test` (R154): the command byte is saved and restored whether the test passed or failed;
0x55 is a pass, any other byte is returned in the error. -/
def Obligations.SelfTestResult : Prop :=
  ∀ (s : State) (cb r : Byte) (x₁ x₂ x₃ : Exchange) (rest : List Byte),
    Idle s → s.ctl.state = .devicesDisabled →
    ResponseExchange 0x20 cb x₁ → ResponseExchange 0xAA r x₂ → ParameterExchange 0x60 cb x₃ →
    s.env.answers = ((x₁.seq x₂).seq x₃).answers ++ rest →
    RunsTo .selfTest s
      (answered
        { ramStored (commanded s rest ((x₁.seq x₂).seq x₃).trace) 0 cb with
          ctl := { s.ctl with saved := cb, resp := r } }
        (if r = 0x55 then .ok .unit else .err (.selfTestFailed r)))

/-- `keyboard_interface_test` and `aux_interface_test` (R156, R157): 0xAB and 0xA9, the response
mapped by `InterfaceTestMap`; `ctl.state` is unchanged in both outcomes. -/
def Obligations.InterfaceTestResults : Prop :=
  ∀ (s : State) (r : Byte) (x : Exchange) (rest : List Byte),
    Idle s → s.ctl.state = .devicesDisabled → s.env.answers = x.answers ++ rest →
    (ResponseExchange 0xAB r x →
      RunsTo .keyboardInterfaceTest s
        (answered
          { commanded s rest x.trace with ctl := { s.ctl with resp := r } }
          (testResult .keyboard r))) ∧
    (ResponseExchange 0xA9 r x →
      RunsTo .auxInterfaceTest s
        (answered
          { commanded s rest x.trace with ctl := { s.ctl with resp := r } }
          (testResult .auxiliary r)))

/-- `ram_read idx` and `ram_write idx, v` for `idx` in 1 to 31 (R158, R159). -/
def Obligations.RamReadWriteResults : Prop :=
  ∀ (s : State) (idx : BitVec 5) (x : Exchange) (rest : List Byte),
    Idle s → s.ctl.state = .devicesDisabled → idx ≠ 0 → s.env.answers = x.answers ++ rest →
    (∀ r, ResponseExchange (BitVec.ofNat 8 (0x20 + idx.toNat)) r x →
      RunsTo (.ramRead idx) s
        (answered
          { commanded s rest x.trace with ctl := { s.ctl with resp := r } } (.ok (.byte r)))) ∧
    (∀ v, ParameterExchange (BitVec.ofNat 8 (0x60 + idx.toNat)) v x →
      RunsTo (.ramWrite idx v) s
        (answered (ramStored (commanded s rest x.trace) idx.toNat v) (.ok .unit)))

/-- `cpu_reset` (R160): the command 0xFE, and nothing of the block is reset. -/
def Obligations.CpuResetResult : Prop :=
  ∀ (s : State) (x : Exchange) (rest : List Byte),
    Idle s → s.ctl.state = .devicesDisabled → PlainExchange 0xFE x →
    s.env.answers = x.answers ++ rest →
    RunsTo .cpuReset s (answered (commanded s rest x.trace) (.ok .unit))

/-- `enable_devices sel` when every selected test passes (R161, R165); `ctl.resp` holds the last
test's 0x00. -/
def Obligations.EnableDevicesResult : Prop :=
  ∀ (s : State) (d : EnableDevice) (cb : Byte) (x : Exchange) (rest : List Byte),
    Idle s → s.ctl.state = .devicesDisabled → EnableExchange d false cb x →
    s.env.answers = x.answers ++ rest →
    RunsTo (.enableDevices (selectorMask d)) s
      (answered
        { commanded s rest x.trace with
          ctl := { s.ctl with
            state := .enabledDevices, sel := selectorMask d, irq := false, resp := 0x00 } }
        (.ok .unit))

/-- `enable_devices_and_interrupts sel` when every selected test passes (R161, R167): the
interrupt-enable bits of the selected devices, and no others, are set in the command byte `cb`. -/
def Obligations.EnableDevicesAndInterruptsResult : Prop :=
  ∀ (s : State) (d : EnableDevice) (cb new : Byte) (x : Exchange) (rest : List Byte),
    Idle s → s.ctl.state = .devicesDisabled → EnableExchange d true cb x →
    s.env.answers = x.answers ++ rest →
    (∀ k, k < 8 → new.getLsbD k =
      (cb.getLsbD k || (k == 0 && hasKeyboard d) || (k == 1 && hasAuxiliary d))) →
    RunsTo (.enableDevicesAndInterrupts (selectorMask d)) s
      (answered
        { ramStored (commanded s rest x.trace) 0 new with
          ctl := { s.ctl with
            state := .enabledDevices, sel := selectorMask d, irq := true, cb := new,
            resp := cb } }
        (.ok .unit))

/-- A failing test ends an enabling transition with its error: the keyboard's before the auxiliary
device's, no enable command written, the command byte not touched, the mode as it was (R161, R173,
60_exceptions.md R275). -/
def Obligations.EnableDevicesFailure : Prop :=
  ∀ (s : State) (d : EnableDevice) (which : TestedInterface) (r : Byte) (x : Exchange)
    (rest : List Byte) (i : Instr),
    i = .enableDevices (selectorMask d) ∨ i = .enableDevicesAndInterrupts (selectorMask d) →
    Idle s → s.ctl.state = .devicesDisabled → r ≠ 0x00 → FailedTestExchange d which r x →
    s.env.answers = x.answers ++ rest →
    RunsTo i s
      (answered
        { commanded s rest x.trace with ctl := { s.ctl with resp := r } } (testResult which r))

/-- `send_to_keyboard b` (R168) and `send_to_auxiliary_device b` (R169), each with its device enabled.
The keyboard's byte goes where a data write goes (20_memory.md R63). -/
def Obligations.SendResults : Prop :=
  ∀ (s : State) (b : Byte), Idle s → s.ctl.state = .enabledDevices →
    (∀ w rest, s.ctl.sel.getLsbD 0 = true → InputWait w → s.env.answers = w ++ rest →
      RunsTo (.sendToKeyboard b) s (answered (keyboardWritten s w rest b) (.ok .unit))) ∧
    (∀ x rest, s.ctl.sel.getLsbD 1 = true → ParameterExchange 0xD4 b x →
      s.env.answers = x.answers ++ rest →
      RunsTo (.sendToAuxiliaryDevice b) s
        (answered (auxWritten (commanded s rest x.trace) b) (.ok .unit)))

/-- `poll_data` (R170): one status read, and one data read when a byte waits, whoever owns it. -/
def Obligations.PollDataResult : Prop :=
  ∀ (s : State) (b : Byte), Idle s → s.ctl.state = .enabledDevices →
    (∀ rest, b.getLsbD 5 = false → b.getLsbD 0 = false → s.env.answers = b :: rest →
      RunsTo .pollData s (answered (exchanged s rest [.readStatus b]) (.ok .noData))) ∧
    (∀ d rest, b.getLsbD 5 = false → b.getLsbD 0 = true → s.env.answers = b :: d :: rest →
      RunsTo .pollData s
        (answered (exchanged s rest [.readStatus b, .readData d])
          (.ok (.data .keyboardOrCommandController d)))) ∧
    (∀ d rest, b.getLsbD 5 = true → s.env.answers = b :: d :: rest →
      RunsTo .pollData s
        (answered (exchanged s rest [.readStatus b, .readData d])
          (.ok (.data .auxiliaryDevice d))))

/-- `disable_devices` (R171): both interface lines disabled, whatever `ctl.sel` was; the full
re-initialization when interrupts were enabled. -/
def Obligations.DisableDevicesResult : Prop :=
  ∀ (s : State) (rest : List Byte), Idle s → s.ctl.state = .enabledDevices →
    (∀ x₁ x₂, s.ctl.irq = false → PlainExchange 0xAD x₁ → PlainExchange 0xA7 x₂ →
      s.env.answers = (x₁.seq x₂).answers ++ rest →
      RunsTo .disableDevices s
        (answered
          { commanded s rest (x₁.seq x₂).trace with
            ctl := { s.ctl with state := .devicesDisabled, sel := 0, irq := false } }
          (.ok .unit))) ∧
    (∀ cb x, s.ctl.irq = true → InitExchange cb x → s.env.answers = x.answers ++ rest →
      RunsTo .disableDevices s
        (answered
          { ramStored (commanded s rest x.trace) 0 (cb &&& 0xFC) with
            ctl := { s.ctl with
              state := .devicesDisabled, sel := 0, irq := false, cb := cb &&& 0xFC,
              resp := cb } }
          (.ok .unit)))

/-! Requests that are turned away. -/

/-- A host operation that is not legal in the present protocol state is answered with
`Err(WrongState)`; nothing else changes (60_exceptions.md R273, R288). -/
def Obligations.WrongStateRefused : Prop :=
  ∀ (i : Instr) (l : List ProtocolState) (s : State),
    legalStates i = some l → Idle s → s.ctl.state ∉ l →
    exec i s = .next (answered s (.err .wrongState))

/-- A host operation that addresses a device that was not enabled is answered with
`Err(DeviceNotEnabled)`, whatever its operand; nothing else changes (R277, R285, R288;
44_keyboard_session.md R238). -/
def Obligations.DeviceNotEnabledRefused : Prop :=
  ∀ (i : Instr) (k : Nat) (s : State),
    deviceBit i = some k → Idle s → s.ctl.state = .enabledDevices →
    s.ctl.sel.getLsbD k = false →
    exec i s = .next (answered s (.err .deviceNotEnabled))

/-- An operand outside its legal range is answered with `Err(BadOperand)`, after the checks of state
and device and before that of the queue's capacity; nothing else changes (R274, R285). -/
def Obligations.BadOperandRefused : Prop :=
  ∀ (i : Instr) (s : State),
    operandIllegal i = true → Idle s → Exposed s i →
    exec i s = .next (answered s (.err .badOperand))

/-- While an operation runs, no instruction but the response it awaits is accepted: nothing changes.
00_scope.md R8 says so of requests; that the not accepted request leaves the state as it is, is read
from it (log 15), and that the same holds of the commands and keyboard bytes, which are instructions of
their own only in the model, is the model's choice (log 7). -/
def Obligations.BusyNotAccepted : Prop :=
  ∀ (i : Instr) (s : State) (op : Option Instr) (p : List Micro),
    s.ctl.upc = .running op p → responseByte i = none →
    (∀ mask, i = .ctlPulseOutput mask → mask = 0b1110) →
    exec i s = .next s

/-- A wait that never ends (41_port_handshake.md R143): on status bytes that all have bit 1 set
`start_init` reads every one of them, returns nothing, and stays where it is in `InitController`. The
form a hang has is left open by 93_implementation_defined.md U1 and is the model's choice: a step that
finds no answer listed changes nothing (log 5), and no result stands on the host interface while an
operation runs (log 18). -/
def Obligations.WaitWithoutEnd : Prop :=
  ∀ (s : State) (w : List Byte),
    Idle s → s.ctl.state = .initController → s.env.answers = w →
    (∀ b ∈ w, b.getLsbD 1 = true) →
    ∃ u, RunsTo .startInit s u ∧
      u.ctl.state = .initController ∧ u.ctl.upc ≠ .idle ∧ u.host.result = none ∧
      u.env.trace = s.env.trace ++ statusReads w ∧ u.env.answers = [] ∧
      (s.host.resetLine = false → step u = .next u)

/-- Only a byte presented as a command that is none is refused: requests, keyboard bytes and
responses always have a next state, and so have an idle block with nothing presented and a running
one (30_encoding.md R105, 60_exceptions.md R270). -/
def Obligations.OnlyCommandBytesRefused : Prop :=
  ∀ (s : State) (r : Refusal), step s = .refused r →
    s.host.resetLine = false ∧ Idle s ∧
    ∃ b p ws, s.host.presented = .controllerCommand b p :: ws ∧ commandByteLegal b = false ∨
      s.host.presented = .deviceCommand b p :: ws ∧
        b.toNat ∉ [0xED, 0xEE, 0xF0, 0xF2, 0xF3, 0xF4, 0xF5, 0xF6]

/-! Issuing keyboard commands. -/

/-- A command issued on an idle queue starts at once: its record is in flight at the first cursor of
its variant, its first byte is written to the keyboard, the FIFO is left empty
(44_keyboard_session.md R239, R240, R242 to R246, R248, R249; 43_command_queue.md R191, R192). -/
def Obligations.IssueStartsOnIdleQueue : Prop :=
  ∀ (i : Instr) (v : Variant) (cmd : Byte) (payload : Option Byte) (s : State)
    (w rest : List Byte),
    issuedCommand i = some (v, cmd, payload) → operandIllegal i = false →
    Idle s → SessionOpen s → s.cfg.wf → s.q.inflight = none → s.q.fifo = [] →
    InputWait w → s.env.answers = w ++ rest →
    ∃ c : Command, c.variant = v ∧ c.cmd = cmd ∧ (∀ d, payload = some d → c.data = d) ∧
      c.cur = firstCursor v ∧
      RunsTo i s
        (answered
          { keyboardWritten s w rest cmd with
            q := { fifo := [], inflight := some c }, freeCount := s.freeCount + 3 }
          (.ok .unit))

/-- A command issued while another is in flight waits at the back of the FIFO; nothing is written to
the device (R239, 43_command_queue.md R191). -/
def Obligations.IssueQueuesBehind : Prop :=
  ∀ (i : Instr) (v : Variant) (cmd : Byte) (payload : Option Byte) (s : State) (c₀ : Command),
    issuedCommand i = some (v, cmd, payload) → operandIllegal i = false →
    Idle s → SessionOpen s → s.q.inflight = some c₀ → s.q.fifo.length < s.cfg.queueCapacity →
    ∃ c : Command, c.variant = v ∧ c.cmd = cmd ∧ (∀ d, payload = some d → c.data = d) ∧
      c.cur = firstCursor v ∧
      RunsTo i s
        (answered
          { s with
            q := { fifo := s.q.fifo ++ [c], inflight := some c₀ }, freeCount := s.freeCount + 3 }
          (.ok .unit))

/-- A full FIFO is answered with `Err(QueueFull)`; nothing else changes, nothing is written to the
device (43_command_queue.md R193, 60_exceptions.md R278, R283). `kbd_select_scancode_set` needs one
free slot when nothing is in flight and two otherwise (44_keyboard_session.md R247). -/
def Obligations.QueueFullRefused : Prop :=
  (∀ (i : Instr) (x : Variant × Byte × Option Byte) (s : State),
    issuedCommand i = some x → operandIllegal i = false → Idle s → SessionOpen s →
    s.q.fifo.length = s.cfg.queueCapacity →
    exec i s = .next (answered s (.err .queueFull))) ∧
  (∀ (n : Byte) (s : State),
    n = 1 ∨ n = 2 ∨ n = 3 → Idle s → SessionOpen s →
    s.cfg.queueCapacity < s.q.fifo.length + (if s.q.inflight = none then 1 else 2) →
    exec (.kbdSelectScancodeSet n) s = .next (answered s (.err .queueFull)))

/-- `kbd_select_scancode_set n` for `n` in 1 to 3 (44_keyboard_session.md R247): the set command and
behind it the query; on an idle queue the set command starts at once, otherwise both wait in the
FIFO. -/
def Obligations.SelectScancodeSetResult : Prop :=
  ∀ (n : Byte) (s : State), n = 1 ∨ n = 2 ∨ n = 3 → Idle s → SessionOpen s →
    ∃ c₁ c₂ : Command,
      (c₁.variant = .sendCommandAndData ∧ c₁.cmd = 0xF0 ∧ c₁.data = n ∧ c₁.cur = .waitAck1) ∧
      (c₂.variant = .sendCommandAndDataAndReceiveResponse ∧ c₂.cmd = 0xF0 ∧ c₂.data = 0x00 ∧
        c₂.cur = .waitAck1) ∧
      (∀ w rest, s.q.inflight = none → s.q.fifo = [] → s.cfg.wf → InputWait w →
        s.env.answers = w ++ rest →
        RunsTo (.kbdSelectScancodeSet n) s
          (answered
            { keyboardWritten s w rest 0xF0 with
              q := { fifo := [c₂], inflight := some c₁ }, freeCount := s.freeCount + 6 }
            (.ok .unit))) ∧
      (∀ c₀, s.q.inflight = some c₀ → s.q.fifo.length + 2 ≤ s.cfg.queueCapacity →
        RunsTo (.kbdSelectScancodeSet n) s
          (answered
            { s with
              q := { fifo := s.q.fifo ++ [c₁, c₂], inflight := some c₀ },
              freeCount := s.freeCount + 6 }
            (.ok .unit)))

/-- A device command by itself (30_encoding.md R100): behind the open session gate, which stands before every
call of the queue (43_command_queue.md R212, 44_keyboard_session.md R238), it starts at once on an idle
queue (R191, R192); behind the closed gate it is answered with the gate's error and nothing else
changes. That the command stands for one `q_add` behind the gate is the model's choice (log 25). -/
def Obligations.DeviceCommandStarts : Prop :=
  ∀ (i : Instr) (v : Variant) (cmd : Byte) (payload : Option Byte) (s : State),
    deviceCommand i = some (v, cmd, payload) → Idle s →
    (∀ w rest, SessionOpen s → s.cfg.wf → s.q.inflight = none → s.q.fifo = [] →
      InputWait w → s.env.answers = w ++ rest →
      ∃ c : Command, c.variant = v ∧ c.cmd = cmd ∧ (∀ d, payload = some d → c.data = d) ∧
        c.cur = firstCursor v ∧
        RunsTo i s
          (answered
            { keyboardWritten s w rest cmd with
              q := { fifo := [], inflight := some c }, freeCount := s.freeCount + 3 }
            (.ok .unit))) ∧
    (¬ SessionOpen s → exec i s = .next (answered s (.err (gateError s))))

/-- With the session gate open and a command in flight a device command waits at the back of the FIFO;
on a full FIFO `q_add` hands it back unchanged in `Err(QueueFull(command))` and changes nothing of the
queue (43_command_queue.md R191, R193; the entry point is the model's choice, log 25). -/
def Obligations.DeviceCommandWaitsOrIsHandedBack : Prop :=
  ∀ (i : Instr) (v : Variant) (cmd : Byte) (payload : Option Byte) (s : State),
    deviceCommand i = some (v, cmd, payload) → Idle s → SessionOpen s →
    ∃ c : Command, c.variant = v ∧ c.cmd = cmd ∧ (∀ d, payload = some d → c.data = d) ∧
      c.cur = firstCursor v ∧
      (∀ c₀, s.q.inflight = some c₀ → s.q.fifo.length < s.cfg.queueCapacity →
        RunsTo i s
          (answered
            { s with
              q := { fifo := s.q.fifo ++ [c], inflight := some c₀ }
              freeCount := s.freeCount + 3 }
            (.ok .unit))) ∧
      (s.q.fifo.length = s.cfg.queueCapacity →
        RunsTo i s
          (answered { s with freeCount := s.freeCount + 3 }
            (.err (.queueFullCommand c))))

/-! The controller commands by themselves. -/

/-- The five commands of the plain class, each its `CtlCmd` (30_encoding.md R95, R98;
41_port_handshake.md R137); of the pulse commands 0xFE. That such a command is presented by itself and
runs in every protocol state (log 7), and that it leaves no result (log 17), is the model's choice. -/
def Obligations.PlainCommands : Prop :=
  ∀ (i : Instr) (c : Byte) (s : State) (x : Exchange) (rest : List Byte),
    plainByte i = some c → Idle s → PlainExchange c x → s.env.answers = x.answers ++ rest →
    RunsTo i s (unanswered (commanded s rest x.trace))

/-- The three commands of the parameter class, each its `CtlCmdData` (R95, R96, R98;
41_port_handshake.md R138, R145): the byte goes to the RAM index of the command, or after 0xD4 to the
auxiliary device (20_memory.md R62, R63). That such a command is presented by itself and runs in every
protocol state (log 7), and that it leaves no result (log 17), is the model's choice. -/
def Obligations.ParameterCommands : Prop :=
  ∀ (d : Byte) (s : State) (x : Exchange) (rest : List Byte),
    Idle s → s.env.answers = x.answers ++ rest →
    (ParameterExchange 0x60 d x →
      RunsTo (.ctlWriteCommandByte d) s
        (unanswered (ramStored (commanded s rest x.trace) 0 d))) ∧
    (∀ idx : BitVec 5, ParameterExchange (BitVec.ofNat 8 (0x60 + idx.toNat)) d x →
      RunsTo (.ctlWriteRam idx d) s
        (unanswered (ramStored (commanded s rest x.trace) idx.toNat d))) ∧
    (ParameterExchange 0xD4 d x →
      RunsTo (.ctlWriteToAux d) s
        (unanswered (auxWritten (commanded s rest x.trace) d)))

/-- The five commands of the response class, each its `CtlCmdResp` (R95, R96, R98;
41_port_handshake.md R139): the response is left in `ctl.resp`. That such a command is presented by itself
and runs in every protocol state (log 7), and that the response goes to no caller and no result is left
on the host interface (log 17), is the model's choice. -/
def Obligations.ResponseCommands : Prop :=
  ∀ (i : Instr) (c r : Byte) (s : State) (x : Exchange) (rest : List Byte),
    responseCommandByte i = some c → Idle s → ResponseExchange c r x →
    s.env.answers = x.answers ++ rest →
    RunsTo i s
      (unanswered { commanded s rest x.trace with ctl := { s.ctl with resp := r } })

/-- The pulse commands other than 0xFE are refused by name: the block never emits one (30_encoding.md
R97, R105(b); 93_implementation_defined.md U5(a); log 13). -/
def Obligations.OtherPulsesRefused : Prop :=
  ∀ (mask : BitVec 4) (s : State), mask ≠ 0b1110 →
    exec (.ctlPulseOutput mask) s = .refused (.pulsePatternNeverEmitted mask)

/-! Response bytes: the checker, the session, the controller's answers. -/

/-- The checker, cursor by cursor (43_command_queue.md R196 to R207): what is written to the device,
the command afterwards with its captured bytes, and the status returned, for each class of byte. -/
def Obligations.CheckerTable : Prop :=
  ∀ (c : Command) (b : Byte),
    (c.variant = .ackResponse → c.cur = .waitAck →
      checkerRow c 0xFA = ⟨none, c, .finished⟩ ∧
      checkerRow c 0xFE = ⟨some c.cmd, c, .inProgress⟩ ∧
      (b ≠ 0xFA → b ≠ 0xFE → checkerRow c b = ⟨none, c, .unexpected⟩)) ∧
    (c.variant = .echo → c.cur = .waitEcho →
      checkerRow c 0xEE = ⟨none, c, .finished⟩ ∧
      checkerRow c 0xFE = ⟨some 0xEE, c, .inProgress⟩ ∧
      (b ≠ 0xEE → b ≠ 0xFE → checkerRow c b = ⟨none, c, .unexpected⟩)) ∧
    (c.variant = .ackResponseWithReturnTwoBytes →
      (c.cur = .waitAck →
        checkerRow c 0xFA = ⟨none, { c with cur := .waitByte1 }, .inProgress⟩ ∧
        checkerRow c 0xFE = ⟨some c.cmd, c, .inProgress⟩ ∧
        (b ≠ 0xFA → b ≠ 0xFE → checkerRow c b = ⟨none, c, .unexpected⟩)) ∧
      (c.cur = .waitByte1 →
        checkerRow c b = ⟨none, { c with r1 := b, cur := .waitByte2 }, .inProgress⟩) ∧
      (c.cur = .waitByte2 → checkerRow c b = ⟨none, { c with r2 := b }, .finished⟩)) ∧
    (c.variant = .sendCommandAndData →
      (c.cur = .waitAck1 →
        checkerRow c 0xFA = ⟨some c.data, { c with cur := .waitAck2 }, .inProgress⟩ ∧
        checkerRow c 0xFE = ⟨some c.cmd, c, .inProgress⟩ ∧
        (b ≠ 0xFA → b ≠ 0xFE → checkerRow c b = ⟨none, c, .unexpected⟩)) ∧
      (c.cur = .waitAck2 →
        checkerRow c 0xFA = ⟨none, c, .finished⟩ ∧
        checkerRow c 0xFE = ⟨some c.data, c, .inProgress⟩ ∧
        (b ≠ 0xFA → b ≠ 0xFE → checkerRow c b = ⟨none, c, .unexpected⟩))) ∧
    (c.variant = .sendCommandAndDataSingleAck →
      (c.cur = .waitAck1 →
        checkerRow c 0xFA = ⟨some c.data, { c with cur := .waitFollowing }, .inProgress⟩ ∧
        checkerRow c 0xFE = ⟨some c.cmd, c, .inProgress⟩ ∧
        (b ≠ 0xFA → b ≠ 0xFE → checkerRow c b = ⟨none, c, .unexpected⟩)) ∧
      (c.cur = .waitFollowing → checkerRow c b = ⟨none, { c with r1 := b }, .finished⟩)) ∧
    (c.variant = .sendCommandAndDataAndReceiveResponse →
      (c.cur = .waitAck1 →
        checkerRow c 0xFA = ⟨some c.data, { c with cur := .waitAck2 }, .inProgress⟩ ∧
        checkerRow c 0xFE = ⟨some c.cmd, c, .inProgress⟩ ∧
        (b ≠ 0xFA → b ≠ 0xFE → checkerRow c b = ⟨none, c, .unexpected⟩)) ∧
      (c.cur = .waitAck2 →
        checkerRow c 0xFA = ⟨none, { c with cur := .waitResponse }, .inProgress⟩ ∧
        checkerRow c 0xFE = ⟨some c.data, c, .inProgress⟩ ∧
        (b ≠ 0xFA → b ≠ 0xFE → checkerRow c b = ⟨none, c, .unexpected⟩)) ∧
      (c.cur = .waitResponse → checkerRow c b = ⟨none, { c with r1 := b }, .finished⟩)) ∧
    (∀ row : CheckerRow,
      (row.ending = .inProgress → rowStatus row b = .commandInProgress) ∧
      (row.ending = .finished → rowStatus row b = .commandFinished row.after) ∧
      (row.ending = .unexpected → rowStatus row b = .unexpectedData b))

/-- A byte of keyboard data by itself with a command in flight: `ACK`, `RESEND`, `ECHO_REPLY`, and by a step
every byte that has no row of its own. The row of the checker's table is applied whole, its write first,
then the cursor and the captures, or the next queued command started (43_command_queue.md R194, R207,
R208, R210), and what the session makes of its status follows, the marker of 0xF5 and 0xF4 with it
(44_keyboard_session.md R235, R236, R241). Behind the closed gate no byte advances the queue: it is
answered with the gate's error and nothing else changes (R238, 70_reset_and_hazards.md R313). That a byte
by itself stands for the session's routing of it is the model's choice (log 11). -/
def Obligations.ReceiveWithCommandInFlight : Prop :=
  (∀ (i : Instr) (b : Byte) (c : Command) (s : State) (w rest : List Byte),
    keyboardByte s.cfg i = some b → Idle s → SessionOpen s → s.q.inflight = some c →
    isSentinel s.cfg b = false → RowAnswers s (checkerRow c b) w rest →
    RunsTo i s (concluded (rowDone s (checkerRow c b) w rest) (rowStatus (checkerRow c b) b))) ∧
  (∀ (b : Byte) (ws : List Presented) (c : Command) (s : State) (w rest : List Byte),
    s.host.resetLine = false → s.host.presented = .keyboardByte b :: ws →
    b ∉ [s.cfg.overrunCode, 0xFA, 0xFE, 0xEE, 0xAA, 0xFC] →
    Idle s → SessionOpen s → s.q.inflight = some c → RowAnswers s (checkerRow c b) w rest →
    StepsTo s
      (concluded
        (rowDone { s with host := { s.host with presented := ws } } (checkerRow c b) w rest)
        (rowStatus (checkerRow c b) b))) ∧
  (∀ (i : Instr) (b : Byte) (s : State),
    keyboardByte s.cfg i = some b → Idle s → ¬ SessionOpen s →
    exec i s = .next (answered s (.err (gateError s)))) ∧
  (∀ (b : Byte) (ws : List Presented) (s : State),
    s.host.resetLine = false → s.host.presented = .keyboardByte b :: ws → Idle s →
    ¬ SessionOpen s →
    step s =
      .next (answered { s with host := { s.host with presented := ws } } (.err (gateError s))))

/-- On an idle queue `q_receive(b)` is `UnexpectedData(b)` and nothing more (43_command_queue.md R195).
A byte of keyboard data by itself is the session's there: RESEND is swallowed (30_encoding.md R102,
44_keyboard_session.md R234, 70_reset_and_hazards.md R316), every other byte that is no sentinel goes to
the scancode decoder, with a row of its own or, by a step, without. Nothing is written to the device.
That a byte by itself stands for the session's routing of it is the model's choice (log 11). -/
def Obligations.ReceiveOnIdleQueue : Prop :=
  (∀ (b : Byte) (conclude : QueueStatus → List Micro),
    receiveSteps none b conclude = conclude (.unexpectedData b)) ∧
  ∀ s : State, Idle s → SessionOpen s → s.q.inflight = none →
    (∀ i b, keyboardByte s.cfg i = some b → isSentinel s.cfg b = false →
      RunsTo i s (if b = 0xFE then answered s (.ok .noEvent) else decoded s b)) ∧
    (∀ b ws, s.host.resetLine = false → s.host.presented = .keyboardByte b :: ws →
      b ∉ [s.cfg.overrunCode, 0xFA, 0xFE, 0xEE, 0xAA, 0xFC] →
      StepsTo s (decoded { s with host := { s.host with presented := ws } } b))

/-- The session's sentinels (44_keyboard_session.md R232, R233, R251): the overrun code first, then
BAT failure, then BAT completion, whatever is in flight; the queue is not changed. The bytes by
themselves do the same (30_encoding.md R102: always); that they stand for the session's routing, behind
its gate, is the model's choice (log 11). The progress of the reset decoder is open. -/
def Obligations.SessionSentinels : Prop :=
  ∀ s : State, Idle s → SessionOpen s →
    ∃ progress,
      RunsTo (.kbdReceive s.cfg.overrunCode) s (answered s (.err .keyDetectionOverrun)) ∧
      (∀ i, keyboardByte s.cfg i = some s.cfg.overrunCode →
        RunsTo i s (answered s (.err .keyDetectionOverrun))) ∧
      (s.cfg.overrunCode ≠ 0xFC →
        RunsTo (.kbdReceive 0xFC) s (answered s (.err .batFailed)) ∧
        RunsTo .respBatFail s (answered s (.err .batFailed))) ∧
      (s.cfg.overrunCode ≠ 0xAA →
        RunsTo (.kbdReceive 0xAA) s (batCompleted s progress) ∧
        RunsTo .respBatOk s (batCompleted s progress))

/-- `kbd_receive` on an idle queue (44_keyboard_session.md R234): RESEND is swallowed, every other byte
that is no sentinel, 0xFA and 0xEE too, goes to the scancode decoder; nothing is written to the
device. -/
def Obligations.KbdReceiveIdle : Prop :=
  ∀ (s : State) (b : Byte),
    Idle s → SessionOpen s → s.q.inflight = none → isSentinel s.cfg b = false →
    RunsTo (.kbdReceive b) s
      (if b = 0xFE then answered s (.ok .noEvent) else decoded s b)

/-- `kbd_receive` with a command in flight (R235, R236, R241, R251): the checker's row is applied, and
what the session makes of its status follows. -/
def Obligations.KbdReceiveActive : Prop :=
  ∀ (s : State) (b : Byte) (c : Command) (w rest : List Byte),
    Idle s → SessionOpen s → s.q.inflight = some c → isSentinel s.cfg b = false →
    RowAnswers s (checkerRow c b) w rest →
    RunsTo (.kbdReceive b) s
      (concluded (rowDone s (checkerRow c b) w rest) (rowStatus (checkerRow c b) b))

/-- A controller response at the test that awaits it (30_encoding.md R99; 42_controller_fsm.md R154 to
R157): the byte is read into `ctl.resp`. At an interface test it decides the result; 0x55 at the
self-test restores the saved command byte and is a pass. -/
def Obligations.AwaitedResponses : Prop :=
  (∀ (i : Instr) (r after : Byte) (which : TestedInterface) (op : Instr) (s : State),
    responseByte i = some r → i ≠ .respSelfTestPassed →
    (op = .keyboardInterfaceTest ∧ after = 0xAB ∧ which = .keyboard) ∨
      (op = .auxInterfaceTest ∧ after = 0xA9 ∧ which = .auxiliary) →
    s.ctl.upc = .running (some op) [.takeResponse after, .judgeTest which, .ret (.ok .unit)] →
    RunsTo i s
      (answered
        { exchanged s s.env.answers [.readData r] with
          ctl := { s.ctl with resp := r, upc := .idle } }
        (testResult which r))) ∧
  (∀ (s : State) (x : Exchange) (rest : List Byte),
    s.ctl.upc = .running (some .selfTest)
      ([.takeResponse 0xAA] ++ ctlCmd 0x60 ++ [.writeDataSaved, .judgeSelfTest]) →
    ParameterExchange 0x60 s.ctl.saved x → s.env.answers = x.answers ++ rest →
    RunsTo .respSelfTestPassed s
      (answered
        { ramStored (commanded s rest ([.readData 0x55] ++ x.trace)) 0 s.ctl.saved with
          ctl := { s.ctl with resp := 0x55, upc := .idle } }
        (.ok .unit)))

/-- A controller response that no running operation is about to read is not read: nothing changes
(20_memory.md R69; log 12). -/
def Obligations.ResponseNotAwaited : Prop :=
  ∀ (i : Instr) (r : Byte) (s : State), responseByte i = some r →
    (∀ op c p, s.ctl.upc ≠ .running op (.takeResponse c :: p)) →
    exec i s = .next s

/-! Frames. -/

/-- The operations of the status decoder and of the controller FSM leave everything outside their
footprint as it was, also when they end in an error or wait for an answer. -/
def Obligations.FrameControllerOperations : Prop :=
  ∀ (i : Instr) (s t : State),
    isControllerOp i = true → Idle s → exec i s = .next t → Framed (footprint i) s t

/-- The controller commands leave everything outside their footprint as it was. -/
def Obligations.FrameControllerCommands : Prop :=
  ∀ (i : Instr) (s t : State),
    isControllerCommand i = true → Idle s → exec i s = .next t → Framed (footprint i) s t

/-- The session's operations, the device commands and the bytes of the checker and the session leave
everything outside their footprint as it was. -/
def Obligations.FrameSession : Prop :=
  ∀ (i : Instr) (s t : State),
    isSessionInstr i = true → Idle s → exec i s = .next t → Framed (footprint i) s t

/-- Where a data write goes (20_memory.md R62, R63): to the keyboard when no parameter is awaited, to
the auxiliary device after 0xD4, to the RAM index of the command otherwise, and to no other place. -/
def Obligations.DataWriteRouting : Prop :=
  ∀ (s : State) (d : Byte),
    (s.writesData d).env.pending = none ∧
    (s.env.pending = none →
      (s.writesData d).env.kbdSent = s.env.kbdSent ++ [d] ∧
      (s.writesData d).env.auxSent = s.env.auxSent ∧ (s.writesData d).env.ram = s.env.ram) ∧
    (s.env.pending = some 0xD4 →
      (s.writesData d).env.auxSent = s.env.auxSent ++ [d] ∧
      (s.writesData d).env.kbdSent = s.env.kbdSent ∧ (s.writesData d).env.ram = s.env.ram) ∧
    (∀ i : Nat, i < 32 → s.env.pending = some (BitVec.ofNat 8 (0x60 + i)) →
      Memory.read (s.writesData d).env.ram i = some d ∧
      (∀ a, a ≠ i → Memory.read (s.writesData d).env.ram a = Memory.read s.env.ram a) ∧
      (s.writesData d).env.kbdSent = s.env.kbdSent ∧
      (s.writesData d).env.auxSent = s.env.auxSent)

/-! Rules of the whole machine. -/

/-- Every step keeps the well-formed states: `ctl.sel` and `ctl.irq` agree with `ctl.state`
(10_state.md R22, R23), the queue keeps its capacity, is empty when idle and holds a command at a
cursor of its variant (R33, R36; 43_command_queue.md R193), the RAM record stays canonical. -/
def Obligations.StepKeepsInv : Prop :=
  ∀ s t : State, Inv s → step s = .next t → Inv t

/-- The state after reset is well formed in every sense the other statements use. -/
def Obligations.ResetIsWellFormed : Prop :=
  Inv State.reset ∧ WritesGuarded State.reset ∧ CommandBytesLegal State.reset ∧
  TransitionInv State.reset

/-- Never a write while the input buffer is full (41_port_handshake.md R136): from reset on, every
port write directly follows a status read that saw bit 1 clear, with no other transaction between. -/
def Obligations.WritesStayGuarded : Prop :=
  WritesGuarded State.reset ∧
  ∀ s t : State, WritesGuarded s → step s = .next t → WritesGuarded t

/-- No byte outside the table of 30_encoding.md R95, and of 0xF0 to 0xFF only 0xFE, is ever written to
the command port (R105(b)). -/
def Obligations.CommandBytesStayLegal : Prop :=
  CommandBytesLegal State.reset ∧
  ∀ s t : State, CommandBytesLegal s → step s = .next t → CommandBytesLegal t

/-- The transition relation (42_controller_fsm.md R174, 10_state.md R21): a step other than reset
leaves `ctl.state`, `ctl.sel` and `ctl.irq` as they are, or makes a transition of the table for the
instruction it runs. So nothing but reset leads back to `InitController`
(70_reset_and_hazards.md R302). -/
def Obligations.ControllerTransitions : Prop :=
  ∀ s t : State, TransitionInv s → s.host.resetLine = false → step s = .next t →
    TransitionInv t ∧
    (SameMode s t ∨ ∃ i, RunsInstr s i ∧ Transition i s t) ∧
    (t.ctl.state = .initController → s.ctl.state = .initController)

/-- A step only adds to the trace and to what the devices have received, uses up answers from the
front, and never changes the parameters (00_scope.md R9, R15; 20_memory.md R70) nor the model's bound on
one step (log 6). -/
def Obligations.HistoryGrows : Prop :=
  ∀ s t : State, step s = .next t →
    t.cfg = s.cfg ∧ t.grain = s.grain ∧ s.env.trace <+: t.env.trace ∧
    s.env.kbdSent <+: t.env.kbdSent ∧ s.env.auxSent <+: t.env.auxSent ∧ t.env.answers <:+ s.env.answers

/-- An answer that comes later makes no difference (10_state.md R25, 41_port_handshake.md R143): an
operation that has waited for it and goes on ends as it would have ended with the answer there from
the start. That an operation waits where no answer is listed, and how much of a sequence one step does, is
the model's choice (logs 5 and 6); it holds for every such bound. -/
def Obligations.WaitingChangesNothing : Prop :=
  ∀ (i : Instr) (s t : State) (bs : List Byte), Idle s → exec i s = .next t →
    RunsTo i (fed s bs) (runAll (fed t bs)) ∧
    (Idle t → runAll (fed t bs) = fed t bs) ∧
    (¬ Idle t → t.host.resetLine = false → StepsTo (fed t bs) (runAll (fed t bs)))

/-- The idempotent cycle (42_controller_fsm.md R172): enabling both devices with interrupts,
disabling, and enabling again ends with the protocol state, the interrupt flag and the selector of the
first enabling, so with the same legal operations. -/
def Obligations.IdempotentCycle : Prop :=
  ∀ (s t₁ t₂ t₃ : State) (a b c : List Byte),
    Idle s → s.ctl.state = .devicesDisabled →
    RunsTo (.enableDevicesAndInterrupts (selectorMask .both)) (fed s a) t₁ →
    t₁.host.result = some (.ok .unit) →
    RunsTo .disableDevices (fed t₁ b) t₂ → t₂.host.result = some (.ok .unit) →
    RunsTo (.enableDevicesAndInterrupts (selectorMask .both)) (fed t₂ c) t₃ →
    t₃.host.result = some (.ok .unit) →
    t₃.ctl.state = .enabledDevices ∧ t₃.ctl.irq = true ∧ t₃.ctl.sel = 0b11 ∧
    t₁.ctl.state = .enabledDevices ∧ t₁.ctl.irq = true ∧ t₁.ctl.sel = 0b11 ∧
    ∀ i, Exposed t₃ i ↔ Exposed t₁ i

/-- The grain of a transition (00_scope.md R6), the one that holds after reset: a step makes at most one
port transaction; a running block makes exactly its next micro-step, or waits; so a run stops between the
status read that ends a wait and the write it guards, and the reset input can fall there
(70_reset_and_hazards.md R302). The field that bounds one step, and that a wait without an answer listed
is a step that changes nothing, are the model's (logs 5 and 6). -/
def Obligations.OneTransactionPerStep : Prop :=
  State.reset.grain = some 0 ∧
  (∀ s t : State, s.grain = some 0 → step s = .next t →
    t.grain = some 0 ∧
    (t.env.trace = s.env.trace ∨ ∃ x, t.env.trace = s.env.trace ++ [x])) ∧
  (∀ s s' : State, s.grain = some 0 → s.host.resetLine = false → microStep s = some s' →
    step s = .next s') ∧
  (∀ s : State, s.host.resetLine = false → ¬ Idle s → microStep s = none → step s = .next s) ∧
  (∀ (s : State) (op : Option Instr) (c b : Byte) (p : List Micro) (bs : List Byte),
    s.grain = some 0 → s.host.resetLine = false → b.getLsbD 1 = false →
    s.ctl.upc = .running op (.pollInput :: .writeCommand c :: p) → s.env.answers = b :: bs →
    ∃ t, step s = .next t ∧ t.ctl.upc = .running op (.writeCommand c :: p) ∧
      t.env.trace = s.env.trace ++ [.readStatus b] ∧
      ∀ u : State, u = { t with host := { t.host with resetLine := true } } →
        ∃ v, step u = .next v ∧ Idle v ∧ v.env.trace = s.env.trace ++ [.readStatus b])
end

