-- ==== Sys2Proof/Laws/Decode.lean ====
section
/-! SUPPORT. The fields of a request word read back, and the fields of the commands that carry an
index or a mask. -/

namespace Sys2Proof

theorem requestWord_getLsbD (op a b : Byte) (i : Nat) :
    (requestWord op a b).getLsbD i =
      if i < 8 then b.getLsbD i else if i - 8 < 8 then a.getLsbD (i - 8)
      else op.getLsbD (i - 8 - 8) := by
  have : (requestWord op a b).getLsbD i = ((op ++ a : BitVec (8 + 8)) ++ b).getLsbD i := rfl
  rw [this, BitVec.getLsbD_append, BitVec.getLsbD_append]

@[simp] theorem requestOp_requestWord (op a b : Byte) : requestOp (requestWord op a b) = op := by
  apply BitVec.eq_of_getLsbD_eq
  intro i hi
  rw [requestOp, BitVec.getLsbD_extractLsb', requestWord_getLsbD, if_neg (by omega),
    if_neg (by omega)]
  simp only [hi, decide_true, Bool.true_and]
  congr 1; omega

@[simp] theorem requestArg0_requestWord (op a b : Byte) :
    requestArg0 (requestWord op a b) = a := by
  apply BitVec.eq_of_getLsbD_eq
  intro i hi
  rw [requestArg0, BitVec.getLsbD_extractLsb', requestWord_getLsbD, if_neg (by omega),
    if_pos (by omega)]
  simp only [hi, decide_true, Bool.true_and]
  congr 1; omega

@[simp] theorem requestArg1_requestWord (op a b : Byte) :
    requestArg1 (requestWord op a b) = b := by
  apply BitVec.eq_of_getLsbD_eq
  intro i hi
  rw [requestArg1, BitVec.getLsbD_extractLsb', requestWord_getLsbD, if_pos (by omega)]
  simp only [hi, decide_true, Bool.true_and]
  congr 1; omega

theorem extract_index (idx : BitVec 5) :
    (idx.zeroExtend 8 : Byte).extractLsb' 0 5 = idx := by
  revert idx; decide

theorem extract_selector (sel : BitVec 2) :
    (sel.zeroExtend 8 : Byte).extractLsb' 0 2 = sel := by
  revert sel; decide

/-- `READ_RAM(idx)` has bits 7:5 = 0b001 and bits 4:0 = idx (30_encoding.md R96). -/
theorem readRamByte_fields : ∀ idx : BitVec 5,
    (readRamByte idx).extractLsb' 5 3 = (0b001 : BitVec 3) ∧
      (readRamByte idx).extractLsb' 0 5 = idx := by
  decide

/-- `WRITE_RAM(idx)` has bits 7:5 = 0b011 and bits 4:0 = idx (R96). -/
theorem writeRamByte_fields : ∀ idx : BitVec 5,
    (writeRamByte idx).extractLsb' 5 3 = (0b011 : BitVec 3) ∧
      (writeRamByte idx).extractLsb' 0 5 = idx := by
  decide

end Sys2Proof
end

