-- ==== Sys2Proof/Laws/State.lean ====
section
/-! SUPPORT. Reading a field after a named update of the state: one lemma for each part of the state
that an update leaves whole, and one for each field of a part it changes. -/

namespace Sys2Proof.Machine

variable (s : State)

@[simp] theorem State.continueAt_cfg (op : Option Instr) (rest : List Micro) :
    (s.continueAt op rest).cfg = s.cfg := rfl
@[simp] theorem State.continueAt_ctl_state (op : Option Instr) (rest : List Micro) :
    (s.continueAt op rest).ctl.state = s.ctl.state := rfl
@[simp] theorem State.continueAt_ctl_sel (op : Option Instr) (rest : List Micro) :
    (s.continueAt op rest).ctl.sel = s.ctl.sel := rfl
@[simp] theorem State.continueAt_ctl_irq (op : Option Instr) (rest : List Micro) :
    (s.continueAt op rest).ctl.irq = s.ctl.irq := rfl
@[simp] theorem State.continueAt_ctl_cb (op : Option Instr) (rest : List Micro) :
    (s.continueAt op rest).ctl.cb = s.ctl.cb := rfl
@[simp] theorem State.continueAt_ctl_saved (op : Option Instr) (rest : List Micro) :
    (s.continueAt op rest).ctl.saved = s.ctl.saved := rfl
@[simp] theorem State.continueAt_ctl_resp (op : Option Instr) (rest : List Micro) :
    (s.continueAt op rest).ctl.resp = s.ctl.resp := rfl
@[simp] theorem State.continueAt_ctl_upc (op : Option Instr) (rest : List Micro) :
    (s.continueAt op rest).ctl.upc = .running op rest := rfl
@[simp] theorem State.continueAt_q (op : Option Instr) (rest : List Micro) :
    (s.continueAt op rest).q = s.q := rfl
@[simp] theorem State.continueAt_ks (op : Option Instr) (rest : List Micro) :
    (s.continueAt op rest).ks = s.ks := rfl
@[simp] theorem State.continueAt_env (op : Option Instr) (rest : List Micro) :
    (s.continueAt op rest).env = s.env := rfl
@[simp] theorem State.continueAt_host (op : Option Instr) (rest : List Micro) :
    (s.continueAt op rest).host = s.host := rfl
@[simp] theorem State.continueAt_decoder (op : Option Instr) (rest : List Micro) :
    (s.continueAt op rest).decoder = s.decoder := rfl
@[simp] theorem State.continueAt_freeCount (op : Option Instr) (rest : List Micro) :
    (s.continueAt op rest).freeCount = s.freeCount := rfl
@[simp] theorem State.continueAt_grain (op : Option Instr) (rest : List Micro) :
    (s.continueAt op rest).grain = s.grain := rfl

@[simp] theorem State.returns_cfg (r : Result) : (s.returns r).cfg = s.cfg := rfl
@[simp] theorem State.returns_ctl_state (r : Result) : (s.returns r).ctl.state = s.ctl.state := rfl
@[simp] theorem State.returns_ctl_sel (r : Result) : (s.returns r).ctl.sel = s.ctl.sel := rfl
@[simp] theorem State.returns_ctl_irq (r : Result) : (s.returns r).ctl.irq = s.ctl.irq := rfl
@[simp] theorem State.returns_ctl_cb (r : Result) : (s.returns r).ctl.cb = s.ctl.cb := rfl
@[simp] theorem State.returns_ctl_saved (r : Result) : (s.returns r).ctl.saved = s.ctl.saved := rfl
@[simp] theorem State.returns_ctl_resp (r : Result) : (s.returns r).ctl.resp = s.ctl.resp := rfl
@[simp] theorem State.returns_ctl_upc (r : Result) : (s.returns r).ctl.upc = .idle := rfl
@[simp] theorem State.returns_q (r : Result) : (s.returns r).q = s.q := rfl
@[simp] theorem State.returns_ks (r : Result) : (s.returns r).ks = s.ks := rfl
@[simp] theorem State.returns_env (r : Result) : (s.returns r).env = s.env := rfl
@[simp] theorem State.returns_host_presented (r : Result) :
    (s.returns r).host.presented = s.host.presented := rfl
@[simp] theorem State.returns_host_result (r : Result) : (s.returns r).host.result = some r := rfl
@[simp] theorem State.returns_host_resetLine (r : Result) :
    (s.returns r).host.resetLine = s.host.resetLine := rfl
@[simp] theorem State.returns_decoder (r : Result) : (s.returns r).decoder = s.decoder := rfl
@[simp] theorem State.returns_freeCount (r : Result) : (s.returns r).freeCount = s.freeCount := rfl
@[simp] theorem State.returns_grain (r : Result) : (s.returns r).grain = s.grain := rfl

@[simp] theorem State.readsStatus_cfg (b : Byte) (bs : List Byte) :
    (s.readsStatus b bs).cfg = s.cfg := rfl
@[simp] theorem State.readsStatus_ctl (b : Byte) (bs : List Byte) :
    (s.readsStatus b bs).ctl = s.ctl := rfl
@[simp] theorem State.readsStatus_q (b : Byte) (bs : List Byte) :
    (s.readsStatus b bs).q = s.q := rfl
@[simp] theorem State.readsStatus_ks (b : Byte) (bs : List Byte) :
    (s.readsStatus b bs).ks = s.ks := rfl
@[simp] theorem State.readsStatus_env_answers (b : Byte) (bs : List Byte) :
    (s.readsStatus b bs).env.answers = bs := rfl
@[simp] theorem State.readsStatus_env_trace (b : Byte) (bs : List Byte) :
    (s.readsStatus b bs).env.trace = s.env.trace ++ [.readStatus b] := rfl
@[simp] theorem State.readsStatus_env_pending (b : Byte) (bs : List Byte) :
    (s.readsStatus b bs).env.pending = s.env.pending := rfl
@[simp] theorem State.readsStatus_env_ram (b : Byte) (bs : List Byte) :
    (s.readsStatus b bs).env.ram = s.env.ram := rfl
@[simp] theorem State.readsStatus_env_kbdSent (b : Byte) (bs : List Byte) :
    (s.readsStatus b bs).env.kbdSent = s.env.kbdSent := rfl
@[simp] theorem State.readsStatus_env_auxSent (b : Byte) (bs : List Byte) :
    (s.readsStatus b bs).env.auxSent = s.env.auxSent := rfl
@[simp] theorem State.readsStatus_host (b : Byte) (bs : List Byte) :
    (s.readsStatus b bs).host = s.host := rfl
@[simp] theorem State.readsStatus_decoder (b : Byte) (bs : List Byte) :
    (s.readsStatus b bs).decoder = s.decoder := rfl
@[simp] theorem State.readsStatus_freeCount (b : Byte) (bs : List Byte) :
    (s.readsStatus b bs).freeCount = s.freeCount := rfl
@[simp] theorem State.readsStatus_grain (b : Byte) (bs : List Byte) :
    (s.readsStatus b bs).grain = s.grain := rfl

@[simp] theorem State.readsData_cfg (b : Byte) (bs : List Byte) :
    (s.readsData b bs).cfg = s.cfg := rfl
@[simp] theorem State.readsData_ctl (b : Byte) (bs : List Byte) :
    (s.readsData b bs).ctl = s.ctl := rfl
@[simp] theorem State.readsData_q (b : Byte) (bs : List Byte) : (s.readsData b bs).q = s.q := rfl
@[simp] theorem State.readsData_ks (b : Byte) (bs : List Byte) : (s.readsData b bs).ks = s.ks := rfl
@[simp] theorem State.readsData_env_answers (b : Byte) (bs : List Byte) :
    (s.readsData b bs).env.answers = bs := rfl
@[simp] theorem State.readsData_env_trace (b : Byte) (bs : List Byte) :
    (s.readsData b bs).env.trace = s.env.trace ++ [.readData b] := rfl
@[simp] theorem State.readsData_env_pending (b : Byte) (bs : List Byte) :
    (s.readsData b bs).env.pending = s.env.pending := rfl
@[simp] theorem State.readsData_env_ram (b : Byte) (bs : List Byte) :
    (s.readsData b bs).env.ram = s.env.ram := rfl
@[simp] theorem State.readsData_env_kbdSent (b : Byte) (bs : List Byte) :
    (s.readsData b bs).env.kbdSent = s.env.kbdSent := rfl
@[simp] theorem State.readsData_env_auxSent (b : Byte) (bs : List Byte) :
    (s.readsData b bs).env.auxSent = s.env.auxSent := rfl
@[simp] theorem State.readsData_host (b : Byte) (bs : List Byte) :
    (s.readsData b bs).host = s.host := rfl
@[simp] theorem State.readsData_decoder (b : Byte) (bs : List Byte) :
    (s.readsData b bs).decoder = s.decoder := rfl
@[simp] theorem State.readsData_freeCount (b : Byte) (bs : List Byte) :
    (s.readsData b bs).freeCount = s.freeCount := rfl
@[simp] theorem State.readsData_grain (b : Byte) (bs : List Byte) :
    (s.readsData b bs).grain = s.grain := rfl

@[simp] theorem State.writesCommand_cfg (c : Byte) : (s.writesCommand c).cfg = s.cfg := rfl
@[simp] theorem State.writesCommand_ctl (c : Byte) : (s.writesCommand c).ctl = s.ctl := rfl
@[simp] theorem State.writesCommand_q (c : Byte) : (s.writesCommand c).q = s.q := rfl
@[simp] theorem State.writesCommand_ks (c : Byte) : (s.writesCommand c).ks = s.ks := rfl
@[simp] theorem State.writesCommand_env_answers (c : Byte) :
    (s.writesCommand c).env.answers = s.env.answers := rfl
@[simp] theorem State.writesCommand_env_trace (c : Byte) :
    (s.writesCommand c).env.trace = s.env.trace ++ [.writeCommand c] := rfl
@[simp] theorem State.writesCommand_env_pending (c : Byte) :
    (s.writesCommand c).env.pending = if takesParameter c then some c else none := rfl
@[simp] theorem State.writesCommand_env_ram (c : Byte) :
    (s.writesCommand c).env.ram = s.env.ram := rfl
@[simp] theorem State.writesCommand_env_kbdSent (c : Byte) :
    (s.writesCommand c).env.kbdSent = s.env.kbdSent := rfl
@[simp] theorem State.writesCommand_env_auxSent (c : Byte) :
    (s.writesCommand c).env.auxSent = s.env.auxSent := rfl
@[simp] theorem State.writesCommand_host (c : Byte) : (s.writesCommand c).host = s.host := rfl
@[simp] theorem State.writesCommand_decoder (c : Byte) :
    (s.writesCommand c).decoder = s.decoder := rfl
@[simp] theorem State.writesCommand_freeCount (c : Byte) :
    (s.writesCommand c).freeCount = s.freeCount := rfl
@[simp] theorem State.writesCommand_grain (c : Byte) :
    (s.writesCommand c).grain = s.grain := rfl

@[simp] theorem State.usesFree_cfg (k : Nat) : (s.usesFree k).cfg = s.cfg := rfl
@[simp] theorem State.usesFree_ctl (k : Nat) : (s.usesFree k).ctl = s.ctl := rfl
@[simp] theorem State.usesFree_q (k : Nat) : (s.usesFree k).q = s.q := rfl
@[simp] theorem State.usesFree_ks (k : Nat) : (s.usesFree k).ks = s.ks := rfl
@[simp] theorem State.usesFree_env (k : Nat) : (s.usesFree k).env = s.env := rfl
@[simp] theorem State.usesFree_host (k : Nat) : (s.usesFree k).host = s.host := rfl
@[simp] theorem State.usesFree_decoder (k : Nat) : (s.usesFree k).decoder = s.decoder := rfl
@[simp] theorem State.usesFree_freeCount (k : Nat) :
    (s.usesFree k).freeCount = s.freeCount + 3 * k := rfl
@[simp] theorem State.usesFree_grain (k : Nat) : (s.usesFree k).grain = s.grain := rfl

@[simp] theorem State.writesData_env_trace (d : Byte) :
    (s.writesData d).env.trace = s.env.trace ++ [.writeData d] := by
  unfold State.writesData; split
  · rfl
  · split <;> rfl

@[simp] theorem State.writesData_env_pending (d : Byte) : (s.writesData d).env.pending = none := by
  unfold State.writesData; split
  · assumption
  · split <;> rfl

@[simp] theorem State.writesData_cfg (d : Byte) : (s.writesData d).cfg = s.cfg := by
  unfold State.writesData; split
  · rfl
  · split <;> rfl

@[simp] theorem State.writesData_ctl (d : Byte) : (s.writesData d).ctl = s.ctl := by
  unfold State.writesData; split
  · rfl
  · split <;> rfl

@[simp] theorem State.writesData_q (d : Byte) : (s.writesData d).q = s.q := by
  unfold State.writesData; split
  · rfl
  · split <;> rfl

@[simp] theorem State.writesData_ks (d : Byte) : (s.writesData d).ks = s.ks := by
  unfold State.writesData; split
  · rfl
  · split <;> rfl

@[simp] theorem State.writesData_host (d : Byte) : (s.writesData d).host = s.host := by
  unfold State.writesData; split
  · rfl
  · split <;> rfl

@[simp] theorem State.writesData_decoder (d : Byte) : (s.writesData d).decoder = s.decoder := by
  unfold State.writesData; split
  · rfl
  · split <;> rfl

@[simp] theorem State.writesData_freeCount (d : Byte) :
    (s.writesData d).freeCount = s.freeCount := by
  unfold State.writesData; split
  · rfl
  · split <;> rfl
@[simp] theorem State.writesData_grain (d : Byte) :
    (s.writesData d).grain = s.grain := by
  unfold State.writesData; split
  · rfl
  · split <;> rfl

@[simp] theorem State.writesData_env_answers (d : Byte) :
    (s.writesData d).env.answers = s.env.answers := by
  unfold State.writesData; split
  · rfl
  · split <;> rfl

/-- With no parameter command pending a data byte goes to the keyboard (20_memory.md R63). -/
theorem State.writesData_keyboard {s : State} (h : s.env.pending = none) (d : Byte) :
    s.writesData d =
      { s with
        env := { s.env with
          trace := s.env.trace ++ [.writeData d], kbdSent := s.env.kbdSent ++ [d] } } := by
  unfold State.writesData; rw [h]

/-- After 0xD4 a data byte goes to the auxiliary device (R63). -/
theorem State.writesData_auxiliary {s : State} (h : s.env.pending = some 0xD4) (d : Byte) :
    s.writesData d =
      { s with
        env := { s.env with
          trace := s.env.trace ++ [.writeData d], pending := none
          auxSent := s.env.auxSent ++ [d] } } := by
  unfold State.writesData; rw [h]; rfl

/-- After a RAM command a data byte is stored at its index (R62). -/
theorem State.writesData_ram {s : State} {c : Byte} (h : s.env.pending = some c) (hc : c ≠ 0xD4)
    (d : Byte) :
    s.writesData d =
      { s with
        env := { s.env with
          trace := s.env.trace ++ [.writeData d], pending := none
          ram := Memory.write s.env.ram (ramIndexOf c) d } } := by
  unfold State.writesData; rw [h]; exact if_neg hc

end Sys2Proof.Machine

namespace Sys2Proof.Safety

open Sys2Proof.Machine

variable (s : State)

@[simp] theorem exchanged_cfg (rest : List Byte) (t : List Txn) :
    (exchanged s rest t).cfg = s.cfg := rfl
@[simp] theorem exchanged_ctl (rest : List Byte) (t : List Txn) :
    (exchanged s rest t).ctl = s.ctl := rfl
@[simp] theorem exchanged_q (rest : List Byte) (t : List Txn) : (exchanged s rest t).q = s.q := rfl
@[simp] theorem exchanged_ks (rest : List Byte) (t : List Txn) :
    (exchanged s rest t).ks = s.ks := rfl
@[simp] theorem exchanged_env_answers (rest : List Byte) (t : List Txn) :
    (exchanged s rest t).env.answers = rest := rfl
@[simp] theorem exchanged_env_trace (rest : List Byte) (t : List Txn) :
    (exchanged s rest t).env.trace = s.env.trace ++ t := rfl
@[simp] theorem exchanged_env_pending (rest : List Byte) (t : List Txn) :
    (exchanged s rest t).env.pending = s.env.pending := rfl
@[simp] theorem exchanged_env_ram (rest : List Byte) (t : List Txn) :
    (exchanged s rest t).env.ram = s.env.ram := rfl
@[simp] theorem exchanged_env_kbdSent (rest : List Byte) (t : List Txn) :
    (exchanged s rest t).env.kbdSent = s.env.kbdSent := rfl
@[simp] theorem exchanged_env_auxSent (rest : List Byte) (t : List Txn) :
    (exchanged s rest t).env.auxSent = s.env.auxSent := rfl
@[simp] theorem exchanged_host (rest : List Byte) (t : List Txn) :
    (exchanged s rest t).host = s.host := rfl
@[simp] theorem exchanged_decoder (rest : List Byte) (t : List Txn) :
    (exchanged s rest t).decoder = s.decoder := rfl
@[simp] theorem exchanged_freeCount (rest : List Byte) (t : List Txn) :
    (exchanged s rest t).freeCount = s.freeCount := rfl
@[simp] theorem exchanged_grain (rest : List Byte) (t : List Txn) :
    (exchanged s rest t).grain = s.grain := rfl

@[simp] theorem answered_cfg (r : Result) : (answered s r).cfg = s.cfg := rfl
@[simp] theorem answered_ctl (r : Result) : (answered s r).ctl = s.ctl := rfl
@[simp] theorem answered_q (r : Result) : (answered s r).q = s.q := rfl
@[simp] theorem answered_ks (r : Result) : (answered s r).ks = s.ks := rfl
@[simp] theorem answered_env (r : Result) : (answered s r).env = s.env := rfl
@[simp] theorem answered_host_presented (r : Result) :
    (answered s r).host.presented = s.host.presented := rfl
@[simp] theorem answered_host_result (r : Result) : (answered s r).host.result = some r := rfl
@[simp] theorem answered_host_resetLine (r : Result) :
    (answered s r).host.resetLine = s.host.resetLine := rfl
@[simp] theorem answered_decoder (r : Result) : (answered s r).decoder = s.decoder := rfl
@[simp] theorem answered_freeCount (r : Result) : (answered s r).freeCount = s.freeCount := rfl
@[simp] theorem answered_grain (r : Result) : (answered s r).grain = s.grain := rfl

end Sys2Proof.Safety
end

