-- ==== Sys2Proof/Laws/Run.lean ====
section
/-! SUPPORT. Running a micro-sequence, said once: every micro-step uses up an answer or a step, so
`runAll` ends only where no micro-step can be taken; what is kept by every micro-step is kept by
`runAll`; and what each wait and each handshake primitive of 41_port_handshake.md does to the state
when the environment gives the answers it waits for. -/

namespace Sys2Proof.Machine

open Sys2Proof.Safety

@[simp] theorem State.continueAt_continueAt (s : State) (op op' : Option Instr)
    (p p' : List Micro) : (s.continueAt op p).continueAt op' p' = s.continueAt op' p' := rfl

@[simp] theorem State.continueAt_returns (s : State) (op : Option Instr) (p : List Micro)
    (r : Result) : (s.continueAt op p).returns r = s.returns r := rfl

theorem microStep_continueAt (s : State) (op : Option Instr) (m : Micro) (p : List Micro) :
    microStep (s.continueAt op (m :: p)) = microExec op m p (s.continueAt op (m :: p)) := rfl

theorem microStep_idle {s : State} (h : s.ctl.upc = .idle) : microStep s = none := by
  unfold microStep; rw [h]

/-- The only steps that are longer than one. -/
theorem Micro.one_le_weight (m : Micro) : 1 ≤ m.weight := by cases m <;> simp [Micro.weight]

theorem measure_continueAt (s : State) (op : Option Instr) (p : List Micro) :
    (s.continueAt op p).measure = 1 + (p.map Micro.weight).sum + s.env.answers.length := rfl

theorem measure_returns (s : State) (r : Result) : (s.returns r).measure = 0 := rfl

theorem measure_startFront (s : State) (op : Option Instr) (p : List Micro) :
    (s.startFront op p).measure ≤ 3 + (p.map Micro.weight).sum + s.env.answers.length := by
  unfold State.startFront
  split
  · simp only [measure_continueAt]; omega
  · simp only [measure_continueAt, devWriteKbd, List.map_append, List.map_cons, List.map_nil,
      Micro.weight, List.sum_append, List.sum_cons, List.sum_nil]
    omega

theorem measure_microExec {op : Option Instr} {m : Micro} {p : List Micro} {s s' : State}
    (hu : s.ctl.upc = .running op (m :: p)) (h : microExec op m p s = some s') :
    s'.measure < m.weight + 1 + (p.map Micro.weight).sum + s.env.answers.length := by
  have hw := m.one_le_weight
  cases m with
  | pollInput =>
    simp only [microExec] at h
    split at h
    · cases h
    · rename_i hans
      split at h <;> cases h
      · simp [State.measure, State.readsStatus, hu, hans, Micro.weight]; omega
      · simp [measure_continueAt, State.readsStatus, hans, Micro.weight]; omega
  | pollResponse =>
    simp only [microExec] at h
    split at h
    · cases h
    · rename_i hans
      split at h <;> cases h
      · simp [measure_continueAt, State.readsStatus, hans, Micro.weight]; omega
      · simp [State.measure, State.readsStatus, hu, hans, Micro.weight]; omega
  | queueAdd c =>
    simp only [microExec] at h
    split at h
    · cases h; rw [measure_returns]; omega
    · split at h <;> cases h
      · refine lt_of_le_of_lt (measure_startFront _ _ _) ?_
        simp [Micro.weight]
      · rw [measure_continueAt]; simp [Micro.weight]
  | finishCommand =>
    simp only [microExec, Option.some.injEq] at h
    subst h
    refine lt_of_le_of_lt (measure_startFront _ _ _) ?_
    simp [Micro.weight]
  | _ =>
    simp only [microExec] at h
    repeat' split at h
    all_goals
      first
      | cases h
        done
      | cases h
        first
        | rw [measure_returns]; omega
        | (rw [measure_continueAt]
           simp_all [Micro.weight, State.readsStatus, State.readsData]
           done)
        | (rw [measure_continueAt]
           simp_all [Micro.weight, State.readsStatus, State.readsData]
           omega)

/-- Every micro-step uses up an answer or a step. -/
theorem measure_microStep {s s' : State} (h : microStep s = some s') : s'.measure < s.measure := by
  unfold microStep at h
  split at h
  · cases h
  · rename_i op hu
    cases h
    simp only [State.measure, hu]
    omega
  · rename_i op m p hu
    have := measure_microExec hu h
    have e : s.measure = 1 + ((m :: p).map Micro.weight).sum + s.env.answers.length := by
      simp only [State.measure, hu]
    simp only [List.map_cons, List.sum_cons] at e
    omega

theorem runFor_eq {n k : Nat} {s : State} (hn : s.measure ≤ n) (hk : s.measure ≤ k) :
    runFor n s = runFor k s := by
  induction n generalizing k s with
  | zero =>
    cases k with
    | zero => rfl
    | succ k =>
      unfold runFor
      cases h : microStep s with
      | none => rfl
      | some s' => have := measure_microStep h; omega
  | succ n ih =>
    cases k with
    | zero =>
      unfold runFor
      cases h : microStep s with
      | none => rfl
      | some s' => have := measure_microStep h; omega
    | succ k =>
      unfold runFor
      cases h : microStep s with
      | none => rfl
      | some s' =>
        have := measure_microStep h
        exact ih (by omega) (by omega)

/-- Running on from a micro-step is running on from the state after it. -/
theorem runAll_of_microStep {s s' : State} (h : microStep s = some s') : runAll s = runAll s' := by
  have hm := measure_microStep h
  unfold runAll
  obtain ⟨n, hn⟩ : ∃ n, s.measure = n + 1 := ⟨s.measure - 1, by omega⟩
  rw [hn]
  show (match microStep s with | none => s | some s' => runFor n s') = _
  rw [h]
  exact runFor_eq (by omega) (le_refl _)

/-- Where no micro-step can be taken, nothing happens. -/
theorem runAll_of_blocked {s : State} (h : microStep s = none) : runAll s = s := by
  unfold runAll
  cases s.measure with
  | zero => rfl
  | succ n => unfold runFor; rw [h]

@[simp] theorem runAll_returns (s : State) (r : Result) : runAll (s.returns r) = s.returns r :=
  runAll_of_blocked (microStep_idle rfl)

theorem runFor_ends {n : Nat} {s : State} (hn : s.measure ≤ n) :
    microStep (runFor n s) = none := by
  induction n generalizing s with
  | zero =>
    cases h : microStep s with
    | none => exact h
    | some s' => have := measure_microStep h; omega
  | succ n ih =>
    unfold runFor
    cases h : microStep s with
    | none => exact h
    | some s' => have := measure_microStep h; exact ih (by omega)

/-- After `runAll` the block is idle or waits for an answer that is not listed. -/
theorem microStep_runAll (s : State) : microStep (runAll s) = none := runFor_ends (le_refl _)

/-- What holds before and is kept by every micro-step holds after any number of them. -/
theorem runFor_induction {P : State → Prop} (hstep : ∀ s s', P s → microStep s = some s' → P s')
    (n : Nat) {s : State} (h : P s) : P (runFor n s) := by
  induction n generalizing s with
  | zero => exact h
  | succ n ih =>
    unfold runFor
    cases hs : microStep s with
    | none => exact h
    | some s' => exact ih (hstep s s' h hs)

/-- What holds before and is kept by every micro-step holds after `runAll`. -/
theorem runAll_induction {P : State → Prop} (hstep : ∀ s s', P s → microStep s = some s' → P s')
    {s : State} (h : P s) : P (runAll s) := runFor_induction hstep _ h

/-! One step of the model goes a part of the way, and from there the sequence ends as it does from where
it was (log 6). -/

theorem runAll_runFor (n : Nat) (s : State) : runAll (runFor n s) = runAll s :=
  (runFor_induction (P := fun s' => runAll s' = runAll s)
    (fun _ _ h hm => (runAll_of_microStep hm).symm.trans h) n rfl)

theorem runAll_runAll (s : State) : runAll (runAll s) = runAll s := runAll_runFor _ s

@[simp] theorem runAll_goOn (s : State) (used : Nat) : runAll (s.goOn used) = runAll s := by
  unfold State.goOn
  split
  · exact runAll_runAll s
  · exact runAll_runFor _ s

@[simp] theorem runAll_advance (s : State) : runAll (advance s) = runAll s := runAll_goOn s 0

theorem goOn_whole {s : State} (h : s.grain = none) (used : Nat) : s.goOn used = runAll s := by
  unfold State.goOn; rw [h]

theorem advance_whole {s : State} (h : s.grain = none) : advance s = runAll s := goOn_whole h 0

/-- What every micro-step keeps, a step of the model keeps. -/
theorem goOn_induction {P : State → Prop} (hstep : ∀ s s', P s → microStep s = some s' → P s')
    {s : State} (used : Nat) (h : P s) : P (s.goOn used) := by
  unfold State.goOn
  split
  · exact runAll_induction hstep h
  · exact runFor_induction hstep _ h

theorem advance_induction {P : State → Prop} (hstep : ∀ s s', P s → microStep s = some s' → P s')
    {s : State} (h : P s) : P (advance s) := goOn_induction hstep 0 h

/-- At the grain of 00_scope.md R6 a step of the model is one micro-step. -/
theorem advance_fine {s s' : State} (h : s.grain = some 0) (hm : microStep s = some s') :
    advance s = s' := by
  unfold advance State.goOn
  rw [h]
  simp only [runFor, hm]

theorem goOn_of_blocked {s : State} (h : microStep s = none) (used : Nat) : s.goOn used = s := by
  unfold State.goOn
  split
  · exact runAll_of_blocked h
  · rename_i n _
    cases n + 1 - used with
    | zero => rfl
    | succ n => simp only [runFor, h]

theorem advance_of_blocked {s : State} (h : microStep s = none) : advance s = s := goOn_of_blocked h 0

/-- The first micro-step counts as one of those a step of the model makes. -/
theorem advance_of_microStep {s s' : State} (h : microStep s = some s') (hg : s'.grain = s.grain) :
    advance s = s'.goOn 1 := by
  unfold advance State.goOn
  rw [hg]
  split
  · exact runAll_of_microStep h
  · rename_i n _
    show runFor (n + 1) s = runFor n s'
    rw [runFor, h]

/-! The empty exchange and exchanges in sequence. -/

theorem exchanged_exchanged (s : State) (r r' : List Byte) (t t' : List Txn) :
    exchanged (exchanged s r t) r' t' = exchanged s r' (t ++ t') := by
  simp [exchanged, List.append_assoc]

theorem exchanged_self (s : State) : exchanged s s.env.answers [] = s := by
  simp [exchanged]

/-! The waits. -/

theorem decodeStatus_inputFull (level : Bool) (b : Byte) :
    (decodeStatus level b).inputFull = b.getLsbD 1 := rfl

theorem decodeStatus_data (level : Bool) (b : Byte) :
    (decodeStatus level b).data = statusOwner b := rfl

theorem statusOwner_eq_none {b : Byte} :
    statusOwner b = none ↔ (b.getLsbD 5 || b.getLsbD 0) = false := by
  unfold statusOwner
  cases b.getLsbD 5 <;> cases b.getLsbD 0 <;> simp

theorem statusOwner_eq_controller {b : Byte} :
    statusOwner b = some .keyboardOrCommandController ↔ responseReady b = true := by
  unfold statusOwner responseReady
  cases b.getLsbD 5 <;> cases b.getLsbD 0 <;> simp

/-- `WaitInputEmpty` (R135): it reads until the first status byte with bit 1 clear. -/
theorem runAll_pollInput {w : List Byte} (hw : InputWait w) {s : State} {rest : List Byte}
    (ha : s.env.answers = w ++ rest) (op : Option Instr) (p : List Micro) :
    runAll (s.continueAt op (.pollInput :: p)) =
      runAll ((exchanged s rest (statusReads w)).continueAt op p) := by
  obtain ⟨busy, last, rfl, hb, hl⟩ := hw
  induction busy generalizing s with
  | nil =>
    rw [runAll_of_microStep (s' := (exchanged s rest (statusReads [last])).continueAt op p)]
    · rfl
    · have : s.env.answers = last :: rest := ha
      have hf : (decodeStatus s.cfg.passwordActiveLevel last).inputFull = false := hl
      rw [microStep_continueAt]; simp [microExec, this, hf, State.readsStatus, exchanged, statusReads,
        State.continueAt]
  | cons b busy ih =>
    have ha' : s.env.answers = b :: (busy ++ [last] ++ rest) := ha
    have hb1 : (decodeStatus s.cfg.passwordActiveLevel b).inputFull = true := hb b (by simp)
    rw [runAll_of_microStep
      (s' := (s.readsStatus b (busy ++ [last] ++ rest)).continueAt op (.pollInput :: p))]
    · rw [ih rfl (fun x hx => hb x (by simp [hx]))]
      simp [exchanged, State.readsStatus, statusReads, State.continueAt]
    · rw [microStep_continueAt]; simp [microExec, ha', hb1, State.readsStatus, State.continueAt]

/-- The status loop of `WaitCtlData` (R141). -/
theorem runAll_pollResponse {w : List Byte} (hw : ResponseWait w) {s : State} {rest : List Byte}
    (ha : s.env.answers = w ++ rest) (op : Option Instr) (c : Byte) (p : List Micro) :
    runAll (s.continueAt op (.pollResponse c :: p)) =
      runAll ((exchanged s rest (statusReads w)).continueAt op p) := by
  obtain ⟨busy, last, rfl, hb, hl⟩ := hw
  have hl' := statusOwner_eq_controller.mpr hl
  induction busy generalizing s with
  | nil =>
    rw [runAll_of_microStep (s' := (exchanged s rest (statusReads [last])).continueAt op p)]
    · rfl
    · have : s.env.answers = last :: rest := ha
      rw [microStep_continueAt]; simp [microExec, decodeStatus_data, this, hl', State.readsStatus, exchanged, statusReads,
        State.continueAt]
  | cons b busy ih =>
    have ha' : s.env.answers = b :: (busy ++ [last] ++ rest) := ha
    have hb1 : statusOwner b ≠ some .keyboardOrCommandController := fun h => by
      have := statusOwner_eq_controller.mp h
      simp [hb b (by simp)] at this
    rw [runAll_of_microStep
      (s' := (s.readsStatus b (busy ++ [last] ++ rest)).continueAt op (.pollResponse c :: p))]
    · rw [ih rfl (fun x hx => hb x (by simp [hx]))]
      simp [exchanged, State.readsStatus, statusReads, State.continueAt]
    · rw [microStep_continueAt]; simp [microExec, decodeStatus_data, ha', hb1, State.readsStatus, State.continueAt]

/-- `DiscardStale` (R140). -/
theorem runAll_pollStale {w : List Byte} {t : List Txn} (hw : StaleCheck w t) {s : State}
    {rest : List Byte} (ha : s.env.answers = w ++ rest) (op : Option Instr) (p : List Micro) :
    runAll (s.continueAt op (.pollStale :: p)) =
      runAll ((exchanged s rest t).continueAt op p) := by
  rcases hw with ⟨b, rfl, hb, rfl⟩ | ⟨b, d, rfl, hb, rfl⟩
  · have ha' : s.env.answers = b :: rest := ha
    have hn := statusOwner_eq_none.mpr hb
    rw [runAll_of_microStep (s' := (exchanged s rest [.readStatus b]).continueAt op p)]
    rw [microStep_continueAt]; simp [microExec, decodeStatus_data, ha', hn, State.readsStatus, exchanged, State.continueAt]
  · have ha' : s.env.answers = b :: d :: rest := ha
    obtain ⟨o, ho⟩ : ∃ o, statusOwner b = some o := by
      cases hs : statusOwner b with
      | none => rw [statusOwner_eq_none.mp hs] at hb; cases hb
      | some o => exact ⟨o, rfl⟩
    rw [runAll_of_microStep
      (s' := (s.readsStatus b (d :: rest)).continueAt op (.dropStale :: p))]
    · rw [runAll_of_microStep
        (s' := ((s.readsStatus b (d :: rest)).readsData d rest).continueAt op p)]
      · simp [exchanged, State.readsStatus, State.readsData, State.continueAt]
      · rw [microStep_continueAt]; simp [microExec, State.readsStatus, State.readsData,
          State.continueAt]
    · rw [microStep_continueAt]; simp [microExec, decodeStatus_data, ha', ho, State.readsStatus, State.continueAt]

/-! One lemma for each step that is neither a wait nor a return. -/

theorem runAll_nil (s : State) (op : Option Instr) (h : s.ctl.upc = .idle) :
    runAll (s.continueAt op []) = s := by
  rw [runAll_of_microStep (s' := s)]
  · exact runAll_of_blocked (microStep_idle h)
  · obtain ⟨cfg, ⟨st, sel, irq, cb, saved, resp, upc⟩, q, ks, env, host, dec, n, g⟩ := s
    simp only at h
    subst h
    rfl

theorem runAll_writeCommand (s : State) (op : Option Instr) (c : Byte) (p : List Micro) :
    runAll (s.continueAt op (.writeCommand c :: p)) =
      runAll ((s.writesCommand c).continueAt op p) :=
  runAll_of_microStep rfl

theorem writesData_continueAt (s : State) (op op' : Option Instr) (d : Byte) (p p' : List Micro) :
    ((s.continueAt op p).writesData d).continueAt op' p' = (s.writesData d).continueAt op' p' := by
  simp only [State.writesData, State.continueAt]
  split
  · rfl
  · split <;> rfl

theorem runAll_writeData (s : State) (op : Option Instr) (d : Byte) (p : List Micro) :
    runAll (s.continueAt op (.writeData d :: p)) = runAll ((s.writesData d).continueAt op p) := by
  rw [runAll_of_microStep (s' := (s.writesData d).continueAt op p)]
  rw [microStep_continueAt, microExec, writesData_continueAt]

theorem runAll_writeDataCb (s : State) (op : Option Instr) (p : List Micro) :
    runAll (s.continueAt op (.writeDataCb :: p)) =
      runAll ((s.writesData s.ctl.cb).continueAt op p) := by
  rw [runAll_of_microStep (s' := (s.writesData s.ctl.cb).continueAt op p)]
  rw [microStep_continueAt, microExec, writesData_continueAt]
  rfl

theorem runAll_writeDataSaved (s : State) (op : Option Instr) (p : List Micro) :
    runAll (s.continueAt op (.writeDataSaved :: p)) =
      runAll ((s.writesData s.ctl.saved).continueAt op p) := by
  rw [runAll_of_microStep (s' := (s.writesData s.ctl.saved).continueAt op p)]
  rw [microStep_continueAt, microExec, writesData_continueAt]
  rfl

theorem runAll_takeResponse {s : State} {r : Byte} {rest : List Byte}
    (ha : s.env.answers = r :: rest) (op : Option Instr) (c : Byte) (p : List Micro) :
    runAll (s.continueAt op (.takeResponse c :: p)) =
      runAll (({ s with
        ctl := { s.ctl with resp := r }
        env := { s.env with
          answers := rest, trace := s.env.trace ++ [Txn.readData r] } }).continueAt op p) :=
  runAll_of_microStep (by
    rw [microStep_continueAt]; simp [microExec, ha, State.readsData, State.continueAt])

@[simp] theorem runAll_ret (s : State) (op : Option Instr) (r : Result) (p : List Micro) :
    runAll (s.continueAt op (.ret r :: p)) = s.returns r := by
  rw [runAll_of_microStep (s' := s.returns r) rfl, runAll_returns]

theorem runAll_decodeByte (s : State) (op : Option Instr) (b : Byte) (p : List Micro) :
    runAll (s.continueAt op (.decodeByte b :: p)) =
      ({ s with decoder := (Config.scancodeDecode s.decoder b).2 }).returns
        (toEvent (Config.scancodeDecode s.decoder b).1) := by
  rw [runAll_of_microStep rfl, runAll_returns]
  rfl

theorem runAll_judgeTest_pass {s : State} (h : interfaceTestMap s.ctl.resp = none)
    (op : Option Instr) (i : TestedInterface) (p : List Micro) :
    runAll (s.continueAt op (.judgeTest i :: p)) = runAll (s.continueAt op p) :=
  runAll_of_microStep (by rw [microStep_continueAt]; simp [microExec, h])

theorem runAll_judgeTest_fail {s : State} {e : InterfaceFault}
    (h : interfaceTestMap s.ctl.resp = some e) (op : Option Instr) (i : TestedInterface)
    (p : List Micro) :
    runAll (s.continueAt op (.judgeTest i :: p)) =
      s.returns (.err (.interfaceError i s.ctl.resp e)) := by
  rw [runAll_of_microStep (s' := s.returns (.err (.interfaceError i s.ctl.resp e))),
    runAll_returns]
  rw [microStep_continueAt]; simp [microExec, h]

/-! The handshake primitives. -/

/-- `CtlCmd(c)` (R137). -/
theorem runAll_ctlCmd {c : Byte} {x : Exchange} (hx : PlainExchange c x) {s : State}
    {rest : List Byte} (ha : s.env.answers = x.answers ++ rest) (op : Option Instr)
    (p : List Micro) :
    runAll (s.continueAt op (ctlCmd c ++ p)) =
      runAll (({ s with
        env := { s.env with
          answers := rest, trace := s.env.trace ++ x.trace
          pending := if takesParameter c then some c else none } }).continueAt op p) := by
  obtain ⟨w₁, w₂, h₁, h₂, rfl⟩ := hx
  simp only [ctlCmd, List.cons_append, List.nil_append]
  rw [runAll_pollInput h₁ (rest := w₂ ++ rest) (by simpa using ha), runAll_writeCommand,
    runAll_pollInput h₂ (rest := rest) (by simp)]
  simp [exchanged, State.writesCommand, State.continueAt]

/-- `CtlCmdData(c, d)` (R138), before it is said where the data byte goes. -/
theorem runAll_ctlCmd_writes {c d : Byte} {x : Exchange} (hx : ParameterExchange c d x) {s : State}
    {rest : List Byte} (ha : s.env.answers = x.answers ++ rest) (op : Option Instr)
    (p : List Micro) :
    ∃ t, x.trace = t ++ [.writeData d] ∧
      ∀ q, runAll (s.continueAt op (ctlCmd c ++ q :: p)) =
        runAll (({ s with
          env := { s.env with
            answers := rest, trace := s.env.trace ++ t
            pending := if takesParameter c then some c else none } }).continueAt op (q :: p)) := by
  obtain ⟨w₁, w₂, h₁, h₂, rfl⟩ := hx
  refine ⟨statusReads w₁ ++ [.writeCommand c] ++ statusReads w₂, rfl, fun q => ?_⟩
  exact runAll_ctlCmd (x := ⟨w₁ ++ w₂, _⟩) ⟨w₁, w₂, h₁, h₂, rfl⟩ ha op (q :: p)

/-- A parameter command that addresses the controller RAM stores its byte there (20_memory.md R62);
`q` is the step that writes `d`. -/
theorem runAll_ramWrite {c d : Byte} {x : Exchange} (hx : ParameterExchange c d x)
    (hc : takesParameter c = true) (hd4 : c ≠ 0xD4) {s : State} {rest : List Byte}
    (ha : s.env.answers = x.answers ++ rest) (op : Option Instr) (p : List Micro) (q : Micro)
    (hq : ∀ s' : State, s'.ctl = s.ctl →
      runAll (s'.continueAt op (q :: p)) = runAll ((s'.writesData d).continueAt op p)) :
    runAll (s.continueAt op (ctlCmd c ++ q :: p)) =
      runAll (({ s with
        env := { s.env with
          answers := rest, trace := s.env.trace ++ x.trace, pending := none
          ram := Memory.write s.env.ram (ramIndexOf c) d } }).continueAt op p) := by
  obtain ⟨t, ht, h⟩ := runAll_ctlCmd_writes hx ha op p
  refine (h q).trans ((hq _ ?_).trans ?_)
  · rfl
  · rw [State.writesData_ram (c := c) (if_pos hc) hd4]
    simp [ht]

/-- `DevWriteAux(b)` (R145). -/
theorem runAll_devWriteAux {b : Byte} {x : Exchange} (hx : ParameterExchange 0xD4 b x) {s : State}
    {rest : List Byte} (ha : s.env.answers = x.answers ++ rest) (op : Option Instr)
    (p : List Micro) :
    runAll (s.continueAt op (devWriteAux b ++ p)) =
      runAll (({ s with
        env := { s.env with
          answers := rest, trace := s.env.trace ++ x.trace, pending := none
          auxSent := s.env.auxSent ++ [b] } }).continueAt op p) := by
  obtain ⟨t, ht, h⟩ := runAll_ctlCmd_writes hx ha op p
  have : devWriteAux b ++ p = ctlCmd 0xD4 ++ .writeData b :: p := by
    simp [devWriteAux, ctlCmdData]
  rw [this, h, runAll_writeData, State.writesData_auxiliary rfl]
  simp [ht]

/-- `CtlCmdResp(c)` (R139). -/
theorem runAll_ctlCmdResp {c r : Byte} {x : Exchange} (hx : ResponseExchange c r x)
    (hc : takesParameter c = false) {s : State} {rest : List Byte}
    (ha : s.env.answers = x.answers ++ rest) (op : Option Instr) (p : List Micro) :
    runAll (s.continueAt op (ctlCmdResp c ++ p)) =
      runAll (({ s with
        ctl := { s.ctl with resp := r }
        env := { s.env with
          answers := rest, trace := s.env.trace ++ x.trace, pending := none } }).continueAt op
        p) := by
  obtain ⟨w₀, t₀, w₁, w₂, w₃, h₀, h₁, h₂, h₃, rfl⟩ := hx
  have e : ctlCmdResp c ++ p =
      .pollStale :: (ctlCmd c ++ (.pollResponse c :: .takeResponse c :: p)) := by
    simp [ctlCmdResp, discardStale, waitCtlData]
  rw [e, runAll_pollStale h₀ (rest := w₁ ++ w₂ ++ w₃ ++ [r] ++ rest) (by simpa using ha),
    runAll_ctlCmd (x := ⟨w₁ ++ w₂, _⟩) (rest := w₃ ++ [r] ++ rest) ⟨w₁, w₂, h₁, h₂, rfl⟩ (by simp),
    runAll_pollResponse h₃ (rest := r :: rest) (by simp),
    runAll_takeResponse (r := r) (rest := rest) (by simp)]
  simp [exchanged, hc, State.continueAt]

/-- `DevWriteKbd(b)` (R142). -/
theorem runAll_devWriteKbd {w : List Byte} (hw : InputWait w) {s : State} {rest : List Byte}
    (ha : s.env.answers = w ++ rest) (op : Option Instr) (b : Byte) (p : List Micro) :
    runAll (s.continueAt op (devWriteKbd b ++ p)) =
      runAll ((keyboardWritten s w rest b).continueAt op p) := by
  simp only [devWriteKbd, List.cons_append, List.nil_append]
  rw [runAll_pollInput hw ha, runAll_writeData]
  rfl

end Sys2Proof.Machine
end

