-- ==== Sys2Proof/Laws/Gates.lean ====
section
/-! SUPPORT. What every operation does before its sequence, said once: the acceptance of a request,
the checks of the protocol state and of the session gate, and the return of a result by a block that is
idle again. -/

namespace Sys2Proof.Machine

open Sys2Proof.Safety

@[simp] theorem unanswered_cfg (s : State) : (unanswered s).cfg = s.cfg := rfl
@[simp] theorem unanswered_ctl (s : State) : (unanswered s).ctl = s.ctl := rfl
@[simp] theorem unanswered_q (s : State) : (unanswered s).q = s.q := rfl
@[simp] theorem unanswered_ks (s : State) : (unanswered s).ks = s.ks := rfl
@[simp] theorem unanswered_env (s : State) : (unanswered s).env = s.env := rfl
@[simp] theorem unanswered_decoder (s : State) : (unanswered s).decoder = s.decoder := rfl
@[simp] theorem unanswered_freeCount (s : State) : (unanswered s).freeCount = s.freeCount := rfl
@[simp] theorem unanswered_grain (s : State) : (unanswered s).grain = s.grain := rfl
@[simp] theorem unanswered_presented (s : State) :
    (unanswered s).host.presented = s.host.presented := rfl
@[simp] theorem unanswered_result (s : State) : (unanswered s).host.result = none := rfl
@[simp] theorem unanswered_resetLine (s : State) :
    (unanswered s).host.resetLine = s.host.resetLine := rfl
@[simp] theorem answered_unanswered (s : State) (r : Result) :
    answered (unanswered s) r = answered s r := rfl

/-- An idle block accepts, with the last result cleared (00_scope.md R8). -/
theorem accept_idle {s : State} (h : s.ctl.upc = .idle)
    (k : State → Host.Outcome State Fault Refusal) : accept s k = k (unanswered s) := by
  unfold accept; rw [h]; rfl

/-- A running block does not (R8). -/
theorem accept_running {s : State} {op : Option Instr} {p : List Micro}
    (h : s.ctl.upc = .running op p) (k : State → Host.Outcome State Fault Refusal) :
    accept s k = .next s := by
  unfold accept; rw [h]

theorem inState_same {st : ProtocolState} {s : State} (h : s.ctl.state = st)
    (k : State → Host.Outcome State Fault Refusal) : inState st s k = k s := if_pos h

theorem inState_other {st : ProtocolState} {s : State} (h : s.ctl.state ≠ st)
    (k : State → Host.Outcome State Fault Refusal) :
    inState st s k = fail .wrongState s := if_neg h

/-- The open session gate (44_keyboard_session.md R238). -/
theorem sessionGate_open {s : State} (h : SessionOpen s)
    (k : State → Host.Outcome State Fault Refusal) : sessionGate s k = k s := by
  unfold sessionGate; rw [if_pos h.1, if_pos h.2]

theorem sessionGate_closed {s : State} (h : s.ctl.state ≠ .enabledDevices)
    (k : State → Host.Outcome State Fault Refusal) :
    sessionGate s k = fail .wrongState s := if_neg h

theorem sessionGate_notEnabled {s : State} (h : s.ctl.state = .enabledDevices)
    (h' : s.ctl.sel.getLsbD 0 = false) (k : State → Host.Outcome State Fault Refusal) :
    sessionGate s k = fail .deviceNotEnabled s := by
  unfold sessionGate; rw [if_pos h, h']; rfl

/-- A result returned by a block that is idle leaves everything else as it is. -/
theorem returns_of_idle {s : State} (h : s.ctl.upc = .idle) (r : Result) :
    s.returns r = answered s r := by
  obtain ⟨cfg, ⟨st, sel, irq, cb, saved, resp, upc⟩, q, ks, env, host, dec, n, g⟩ := s
  simp only at h
  subst h
  rfl

/-- An immediate error changes nothing but the result (60_exceptions.md R283). -/
theorem fail_of_idle {s : State} (h : s.ctl.upc = .idle) (e : Err) :
    fail e s = .next (answered s (.err e)) := congrArg _ (returns_of_idle h _)

/-- The closed gate, said once (44_keyboard_session.md R238). -/
theorem sessionGate_error {s : State} (hi : s.ctl.upc = .idle) (h : ¬ SessionOpen s)
    (k : State → Host.Outcome State Fault Refusal) :
    sessionGate s k = .next (answered s (.err (gateError s))) := by
  unfold sessionGate gateError
  split
  · rename_i hs
    rw [if_neg fun hk => h ⟨hs, hk⟩]
    exact fail_of_idle hi _
  · exact fail_of_idle hi _

/-- A sequence that is started runs to where it runs. -/
theorem runsTo_of_advance {i : Instr} {s t u : State} (h : exec i s = .next (advance t))
    (hu : runAll t = u) (hg : t.grain = s.grain) : RunsTo i s u :=
  ⟨⟨_, h, (runAll_advance t).trans hu⟩, fun g => by rw [h, advance_whole (hg.trans g), hu]⟩

/-- The same of a step of the machine. -/
theorem stepsTo_of_advance {s t u : State} (h : step s = .next (advance t)) (hu : runAll t = u)
    (hg : t.grain = s.grain) : StepsTo s u :=
  ⟨⟨_, h, (runAll_advance t).trans hu⟩, fun g => by rw [h, advance_whole (hg.trans g), hu]⟩

/-- An answer at once is where the instruction runs to. -/
theorem runsTo_of_idle {i : Instr} {s u : State} (h : exec i s = .next u) (hu : u.ctl.upc = .idle) :
    RunsTo i s u :=
  ⟨⟨u, h, runAll_of_blocked (microStep_idle hu)⟩, fun _ => h⟩

end Sys2Proof.Machine
end

