-- ==== Sys2Proof/Laws/Memory.lean ====
section
/-! SUPPORT. The RAM index space: a read after a write, and the canonical form, which every write
keeps and which makes equal contents equal lists. -/

namespace Sys2Proof.Machine

/-- A read at the index written gives the byte written. -/
@[simp] theorem Memory.read_write_same (m : Memory) (a : Nat) (b : Byte) :
    Memory.read (Memory.write m a b) a = some b := by
  induction m with
  | nil => simp [Memory.write, Memory.read]
  | cons kv m ih =>
    obtain ⟨k, v⟩ := kv
    unfold Memory.write
    split
    · simp [Memory.read]
    · split
      · simp [Memory.read]
      · rename_i h1 h2
        have : k ≠ a := fun h => h2 h.symm
        simp [Memory.read, this, ih]

/-- A write leaves every other index as it was. -/
theorem Memory.read_write_other (m : Memory) {a a' : Nat} (b : Byte) (h : a' ≠ a) :
    Memory.read (Memory.write m a b) a' = Memory.read m a' := by
  induction m with
  | nil => simp [Memory.write, Memory.read, h.symm]
  | cons kv m ih =>
    obtain ⟨k, v⟩ := kv
    unfold Memory.write
    split
    · simp [Memory.read, h.symm]
    · split
      · rename_i h1 h2
        subst h2
        simp [Memory.read, h.symm]
      · simp [Memory.read, ih]

theorem Memory.wfFrom_mono {m : Memory} {lo lo' : Nat} (h : lo' ≤ lo)
    (hw : Memory.wfFrom lo m = true) : Memory.wfFrom lo' m = true := by
  cases m with
  | nil => rfl
  | cons kv m =>
    simp only [Memory.wfFrom, Bool.and_eq_true, decide_eq_true_eq] at hw ⊢
    exact ⟨⟨h.trans hw.1.1, hw.1.2⟩, hw.2⟩

theorem Memory.wfFrom_write {m : Memory} {lo a : Nat} {b : Byte} (ha : lo ≤ a) (h32 : a < 32)
    (hw : Memory.wfFrom lo m = true) : Memory.wfFrom lo (Memory.write m a b) = true := by
  induction m generalizing lo with
  | nil => simp [Memory.write, Memory.wfFrom, ha, h32]
  | cons kv m ih =>
    obtain ⟨k, v⟩ := kv
    simp only [Memory.wfFrom, Bool.and_eq_true, decide_eq_true_eq] at hw
    unfold Memory.write
    split
    · rename_i h1
      simp only [Memory.wfFrom, Bool.and_eq_true, decide_eq_true_eq]
      exact ⟨⟨ha, h32⟩, ⟨h1, hw.1.2⟩, hw.2⟩
    · split
      · rename_i h1 h2
        subst h2
        simp only [Memory.wfFrom, Bool.and_eq_true, decide_eq_true_eq]
        exact ⟨⟨ha, h32⟩, hw.2⟩
      · rename_i h1 h2
        simp only [Memory.wfFrom, Bool.and_eq_true, decide_eq_true_eq]
        exact ⟨hw.1, ih (by omega) hw.2⟩

/-- Every write inside the 32 indices keeps the canonical form. -/
theorem Memory.wf_write {m : Memory} {a : Nat} {b : Byte} (h32 : a < 32)
    (hw : Memory.wf m = true) : Memory.wf (Memory.write m a b) = true :=
  Memory.wfFrom_write (Nat.zero_le a) h32 hw

/-- A RAM command's index is one of the 32. -/
theorem ramIndexOf_lt (c : Byte) : ramIndexOf c < 32 := (c.extractLsb' 0 5).isLt

/-- A data write keeps the canonical form. -/
theorem State.writesData_ram_wf {s : State} (d : Byte) (h : Memory.wf s.env.ram = true) :
    Memory.wf (s.writesData d).env.ram = true := by
  unfold State.writesData
  split
  · exact h
  · split
    · exact h
    · exact Memory.wf_write (ramIndexOf_lt _) h

/-- The memory after reset has the canonical form. -/
theorem reset_ram_wf : Memory.wf State.reset.env.ram = true := rfl

theorem Memory.read_lt {lo : Nat} {m : Memory} (hw : Memory.wfFrom lo m = true) {a : Nat}
    (h : a < lo) : Memory.read m a = none := by
  induction m generalizing lo with
  | nil => rfl
  | cons kv m ih =>
    simp only [Memory.wfFrom, Bool.and_eq_true, decide_eq_true_eq] at hw
    have hne : kv.1 ≠ a := by omega
    have := ih hw.2 (show a < kv.1 + 1 by omega)
    obtain ⟨k, v⟩ := kv
    simpa [Memory.read, hne] using this

/-- Two memories in canonical form with the same contents are the same list. -/
theorem Memory.ext_of_wfFrom {lo : Nat} {m m' : Memory} (hw : Memory.wfFrom lo m = true)
    (hw' : Memory.wfFrom lo m' = true) (h : ∀ a, Memory.read m a = Memory.read m' a) : m = m' := by
  induction m generalizing lo m' with
  | nil =>
    cases m' with
    | nil => rfl
    | cons kv m' => have := h kv.1; simp [Memory.read] at this
  | cons kv m ih =>
    obtain ⟨k, v⟩ := kv
    cases m' with
    | nil => have := h k; simp [Memory.read] at this
    | cons kv' m' =>
      obtain ⟨k', v'⟩ := kv'
      simp only [Memory.wfFrom, Bool.and_eq_true, decide_eq_true_eq] at hw hw'
      have hk : k = k' := by
        by_contra hne
        rcases Nat.lt_or_gt_of_ne hne with hlt | hlt
        · have h1 := h k
          simp [Memory.read, Ne.symm hne, Memory.read_lt hw'.2 (show k < k' + 1 by omega)] at h1
        · have h1 := h k'
          simp [Memory.read, hne, Memory.read_lt hw.2 (show k' < k + 1 by omega)] at h1
      subst hk
      have hv : v = v' := by have h1 := h k; simpa [Memory.read] using h1
      subst hv
      congr 1
      refine ih hw.2 hw'.2 fun a => ?_
      by_cases ha : k = a
      · subst ha
        rw [Memory.read_lt hw.2 (by omega), Memory.read_lt hw'.2 (by omega)]
      · have := h a
        simpa [Memory.read, ha] using this

end Sys2Proof.Machine
end

