-- ==== Sys2Proof/Laws/Sequences.lean ====
section
/-! SUPPORT. The shared micro-sequences, each said once: the handshakes in the terms of
Sys2Proof/Safety.lean, the read-modify-write of the command byte, the initialization sequence, the
interface tests, and the queue's two steps. -/

namespace Sys2Proof.Machine

open Sys2Proof.Safety

/-- A plain command (41_port_handshake.md R137). -/
theorem runAll_plain {c : Byte} {x : Exchange} (hx : PlainExchange c x)
    (hc : takesParameter c = false) {s : State} {rest : List Byte}
    (ha : s.env.answers = x.answers ++ rest) (op : Option Instr) (p : List Micro) :
    runAll (s.continueAt op (ctlCmd c ++ p)) =
      runAll ((commanded s rest x.trace).continueAt op p) := by
  rw [runAll_ctlCmd hx ha]
  simp [commanded, hc]

/-- A response command (R139). -/
theorem runAll_response {c r : Byte} {x : Exchange} (hx : ResponseExchange c r x)
    (hc : takesParameter c = false) {s : State} {rest : List Byte}
    (ha : s.env.answers = x.answers ++ rest) (op : Option Instr) (p : List Micro) :
    runAll (s.continueAt op (ctlCmdResp c ++ p)) =
      runAll (({ commanded s rest x.trace with ctl := { s.ctl with resp := r } }).continueAt
        op p) := by
  rw [runAll_ctlCmdResp hx hc ha]
  rfl

/-- A parameter command whose byte is given (R138), stored at the command's RAM index. -/
theorem runAll_parameter {c d : Byte} {x : Exchange} (hx : ParameterExchange c d x)
    (hc : takesParameter c = true) (hd4 : c ≠ 0xD4) {s : State} {rest : List Byte}
    (ha : s.env.answers = x.answers ++ rest) (op : Option Instr) (p : List Micro) :
    runAll (s.continueAt op (ctlCmdData c d ++ p)) =
      runAll ((ramStored (commanded s rest x.trace) (ramIndexOf c) d).continueAt op p) := by
  have e : ctlCmdData c d ++ p = ctlCmd c ++ .writeData d :: p := by simp [ctlCmdData]
  rw [e, runAll_ramWrite hx hc hd4 ha op p (.writeData d) fun s' _ => runAll_writeData s' op d p]
  rfl

/-- The parameter command for the auxiliary device (R145). -/
theorem runAll_auxiliary {b : Byte} {x : Exchange} (hx : ParameterExchange 0xD4 b x) {s : State}
    {rest : List Byte} (ha : s.env.answers = x.answers ++ rest) (op : Option Instr)
    (p : List Micro) :
    runAll (s.continueAt op (devWriteAux b ++ p)) =
      runAll ((auxWritten (commanded s rest x.trace) b).continueAt op p) := by
  rw [runAll_devWriteAux hx ha]
  rfl

/-- `WriteCB(ctl.cb)` (42_controller_fsm.md R152). -/
theorem runAll_writeCb {x : Exchange} {s : State} (hx : ParameterExchange 0x60 s.ctl.cb x)
    {rest : List Byte} (ha : s.env.answers = x.answers ++ rest) (op : Option Instr)
    (p : List Micro) :
    runAll (s.continueAt op (writeCb ++ p)) =
      runAll ((ramStored (commanded s rest x.trace) 0 s.ctl.cb).continueAt op p) := by
  have e : writeCb ++ p = ctlCmd 0x60 ++ .writeDataCb :: p := by simp [writeCb]
  rw [e, runAll_ramWrite hx rfl (by decide) ha op p .writeDataCb
    fun s' h => by rw [runAll_writeDataCb, h]]
  rfl

/-- The write-back of the saved command byte (R154 step 3). -/
theorem runAll_writeSaved {x : Exchange} {s : State} (hx : ParameterExchange 0x60 s.ctl.saved x)
    {rest : List Byte} (ha : s.env.answers = x.answers ++ rest) (op : Option Instr)
    (p : List Micro) :
    runAll (s.continueAt op (ctlCmd 0x60 ++ .writeDataSaved :: p)) =
      runAll ((ramStored (commanded s rest x.trace) 0 s.ctl.saved).continueAt op p) := by
  rw [runAll_ramWrite hx rfl (by decide) ha op p .writeDataSaved
    fun s' h => by rw [runAll_writeDataSaved, h]]
  rfl

/-- The read-modify-write of the command byte (20_memory.md R73); `m` is its modifying step. -/
theorem runAll_update {old new : Byte} {x : Exchange} (hx : UpdateExchange old new x) {s : State}
    {rest : List Byte} (ha : s.env.answers = x.answers ++ rest) (op : Option Instr)
    (p : List Micro) (m : Micro)
    (hm : ∀ (s' : State) (q : List Micro), s'.ctl.cb = old →
      runAll (s'.continueAt op (m :: q)) =
        runAll (({ s' with ctl := { s'.ctl with cb := new } }).continueAt op q)) :
    runAll (s.continueAt op (readCbToCb ++ (m :: (writeCb ++ p)))) =
      runAll (({ ramStored (commanded s rest x.trace) 0 new with
        ctl := { s.ctl with cb := new, resp := old } }).continueAt op p) := by
  obtain ⟨x₁, x₂, h₁, h₂, rfl⟩ := hx
  have e : readCbToCb ++ (m :: (writeCb ++ p)) =
      ctlCmdResp 0x20 ++ (.cbFromResp :: m :: (writeCb ++ p)) := by simp [readCbToCb]
  rw [e, runAll_response h₁ rfl (rest := x₂.answers ++ rest) (by simpa [Exchange.seq] using ha),
    runAll_of_microStep rfl]
  refine (hm _ _ rfl).trans ?_
  refine (runAll_writeCb (x := x₂) (rest := rest) h₂ rfl op p).trans ?_
  simp [commanded, ramStored, Exchange.seq, State.continueAt]

/-- `InitSequence()` (R151). -/
theorem runAll_initSequence {cb : Byte} {x : Exchange} (hx : InitExchange cb x) {s : State}
    {rest : List Byte} (ha : s.env.answers = x.answers ++ rest) (op : Option Instr)
    (p : List Micro) :
    runAll (s.continueAt op (initSequence ++ p)) =
      runAll (({ ramStored (commanded s rest x.trace) 0 (cb &&& 0xFC) with
        ctl := { s.ctl with
          state := .devicesDisabled, sel := 0, irq := false, cb := cb &&& 0xFC,
          resp := cb } }).continueAt op p) := by
  obtain ⟨x₁, x₂, x₃, x₄, h₁, h₂, h₃, h₄, rfl⟩ := hx
  have e : initSequence ++ p = ctlCmd 0xAD ++ (ctlCmd 0xA7 ++ (readCbToCb ++
      (.cbClearInterrupts :: (writeCb ++ (.enterDisabled :: p))))) := by simp [initSequence]
  rw [e,
    runAll_plain h₁ rfl (rest := x₂.answers ++ (x₃.answers ++ (x₄.answers ++ rest)))
      (by simpa [Exchange.seq] using ha),
    runAll_plain h₂ rfl (rest := x₃.answers ++ (x₄.answers ++ rest)) rfl,
    runAll_update (x := x₃.seq x₄) (rest := rest) ⟨x₃, x₄, h₃, h₄, rfl⟩
      (by simp [Exchange.seq, commanded]) op _ .cbClearInterrupts
      (fun s' q h => by rw [runAll_of_microStep rfl]; subst h; rfl),
    runAll_of_microStep rfl]
  simp [commanded, ramStored, Exchange.seq, State.continueAt]

/-- The last step of a sequence that ends in `DevicesDisabled` (R151 step 6, R171). -/
theorem runAll_enterDisabled (s : State) (op : Option Instr) (p : List Micro) :
    runAll (s.continueAt op (.enterDisabled :: p)) =
      runAll (({ s with
        ctl := { s.ctl with sel := 0, irq := false, state := .devicesDisabled } }).continueAt op
        p) :=
  runAll_of_microStep rfl

/-- The last step of an enabling transition (R161 step 6). -/
theorem runAll_enterEnabled (s : State) (op : Option Instr) (d : EnableDevice) (irq : Bool)
    (p : List Micro) :
    runAll (s.continueAt op (.enterEnabled d irq :: p)) =
      runAll (({ s with
        ctl := { s.ctl with
          sel := selectorMask d, irq := irq, state := .enabledDevices } }).continueAt op p) :=
  runAll_of_microStep rfl

/-- The end of `ram_read` (R158 step 3). -/
theorem runAll_returnResponse (s : State) (op : Option Instr) (p : List Micro) :
    runAll (s.continueAt op (.returnResponse :: p)) = s.returns (.ok (.byte s.ctl.resp)) := by
  rw [runAll_of_microStep (s' := s.returns (.ok (.byte s.ctl.resp))) rfl, runAll_returns]

/-- The write of `ks.marker` (44_keyboard_session.md R241). -/
theorem runAll_setMarker (s : State) (op : Option Instr) (mk : Marker) (p : List Micro) :
    runAll (s.continueAt op (.setMarker mk :: p)) =
      runAll (({ s with ks := { s.ks with marker := mk } }).continueAt op p) :=
  runAll_of_microStep rfl

/-- `DecoderReset()` (R231, R233). -/
theorem runAll_resetDecoder (s : State) (op : Option Instr) (p : List Micro) :
    runAll (s.continueAt op (.resetDecoder :: p)) =
      runAll (({ s with
        decoder := { table := .set2, progress := Config.decoderReset s.decoder } }).continueAt op
        p) :=
  runAll_of_microStep rfl

/-- The data read of `poll_data` (R170 step 2). -/
theorem runAll_takeOwned {s : State} {b : Byte} {rest : List Byte}
    (ha : s.env.answers = b :: rest) (op : Option Instr) (o : Owner) (p : List Micro) :
    runAll (s.continueAt op (.takeOwned o :: p)) =
      (exchanged s rest [.readData b]).returns (.ok (.data o b)) := by
  rw [runAll_of_microStep (s' := (exchanged s rest [.readData b]).returns (.ok (.data o b))),
    runAll_returns]
  rw [microStep_continueAt]
  simp [microExec, ha, State.readsData, exchanged, State.returns, State.continueAt]

/-- A keyboard write touches nothing but the environment. -/
@[simp] theorem keyboardWritten_ctl (s : State) (w rest : List Byte) (d : Byte) :
    (keyboardWritten s w rest d).ctl = s.ctl := by
  simp only [keyboardWritten, exchanged, State.writesData]
  split
  · rfl
  · split <;> rfl

@[simp] theorem keyboardWritten_q (s : State) (w rest : List Byte) (d : Byte) :
    (keyboardWritten s w rest d).q = s.q := by
  simp only [keyboardWritten, exchanged, State.writesData]
  split
  · rfl
  · split <;> rfl

@[simp] theorem keyboardWritten_cfg (s : State) (w rest : List Byte) (d : Byte) :
    (keyboardWritten s w rest d).cfg = s.cfg := by
  simp only [keyboardWritten, exchanged, State.writesData]
  split
  · rfl
  · split <;> rfl

@[simp] theorem keyboardWritten_ks (s : State) (w rest : List Byte) (d : Byte) :
    (keyboardWritten s w rest d).ks = s.ks := by
  simp only [keyboardWritten, exchanged, State.writesData]
  split
  · rfl
  · split <;> rfl

@[simp] theorem keyboardWritten_host (s : State) (w rest : List Byte) (d : Byte) :
    (keyboardWritten s w rest d).host = s.host := by
  simp only [keyboardWritten, exchanged, State.writesData]
  split
  · rfl
  · split <;> rfl

@[simp] theorem keyboardWritten_decoder (s : State) (w rest : List Byte) (d : Byte) :
    (keyboardWritten s w rest d).decoder = s.decoder := by
  simp only [keyboardWritten, exchanged, State.writesData]
  split
  · rfl
  · split <;> rfl

@[simp] theorem keyboardWritten_freeCount (s : State) (w rest : List Byte) (d : Byte) :
    (keyboardWritten s w rest d).freeCount = s.freeCount := by
  simp only [keyboardWritten, exchanged, State.writesData]
  split
  · rfl
  · split <;> rfl

/-- Whether the last result is cleared before or after a keyboard write is the same. -/
theorem keyboardWritten_unanswered (s : State) (w rest : List Byte) (d : Byte) :
    keyboardWritten (unanswered s) w rest d = unanswered (keyboardWritten s w rest d) := by
  simp only [keyboardWritten, exchanged, State.writesData, unanswered]
  split
  · rfl
  · split <;> rfl

/-- The same of the counter of free values. -/
theorem keyboardWritten_usesFree (s : State) (k : Nat) (w rest : List Byte) (d : Byte) :
    keyboardWritten (s.usesFree k) w rest d = (keyboardWritten s w rest d).usesFree k := by
  simp only [keyboardWritten, exchanged, State.writesData, State.usesFree]
  split
  · rfl
  · split <;> rfl

/-- The end of `self_test` (R154 step 4). -/
theorem runAll_judgeSelfTest (s : State) (op : Option Instr) (p : List Micro) :
    runAll (s.continueAt op (.judgeSelfTest :: p)) =
      s.returns (if s.ctl.resp = 0x55 then .ok .unit else .err (.selfTestFailed s.ctl.resp)) := by
  rw [runAll_of_microStep (s' := s.returns
    (if s.ctl.resp = 0x55 then .ok .unit else .err (.selfTestFailed s.ctl.resp))), runAll_returns]
  rw [microStep_continueAt, microExec]
  show (if s.ctl.resp = 0x55 then some (s.returns (.ok .unit))
    else some (s.returns (.err (.selfTestFailed s.ctl.resp)))) = _
  split <;> rfl

/-- A passed interface test (R156, R157, R161). -/
theorem runAll_testPassed {which : TestedInterface} {x : Exchange}
    (hx : ResponseExchange (match which with | .keyboard => 0xAB | .auxiliary => 0xA9) 0x00 x)
    {s : State} {rest : List Byte} (ha : s.env.answers = x.answers ++ rest) (op : Option Instr)
    (p : List Micro) :
    runAll (s.continueAt op (testSteps which ++ p)) =
      runAll (({ commanded s rest x.trace with ctl := { s.ctl with resp := 0x00 } }).continueAt
        op p) := by
  cases which <;>
  · simp only [testSteps, List.append_assoc, List.cons_append, List.nil_append]
    rw [runAll_response hx rfl ha]
    exact runAll_judgeTest_pass rfl op _ p

/-- A failed interface test ends the operation. -/
theorem runAll_testFailed {which : TestedInterface} {r : Byte} {e : InterfaceFault} {x : Exchange}
    (hx : ResponseExchange (match which with | .keyboard => 0xAB | .auxiliary => 0xA9) r x)
    (he : interfaceTestMap r = some e) {s : State} {rest : List Byte}
    (ha : s.env.answers = x.answers ++ rest) (op : Option Instr) (p : List Micro) :
    runAll (s.continueAt op (testSteps which ++ p)) =
      ({ commanded s rest x.trace with ctl := { s.ctl with resp := r } }).returns
        (.err (.interfaceError which r e)) := by
  cases which <;>
  · simp only [testSteps, List.append_assoc, List.cons_append, List.nil_append]
    rw [runAll_response hx rfl ha]
    exact runAll_judgeTest_fail he op _ p

/-- `q_add` on an idle queue: the command starts (43_command_queue.md R191, R192). -/
theorem runAll_queueAdd_idle {s : State} {c : Command} {w rest : List Byte}
    (hi : s.q.inflight = none) (hf : s.q.fifo = []) (hc : s.cfg.wf) (hw : InputWait w)
    (ha : s.env.answers = w ++ rest) (op : Option Instr) (p : List Micro) :
    runAll (s.continueAt op (.queueAdd c :: p)) =
      runAll (({ keyboardWritten s w rest c.cmd with
        q := { fifo := [], inflight := some { c with cur := firstCursor c.variant } }
        }).continueAt op p) := by
  have hcap : ¬ (0 : Nat) = s.cfg.queueCapacity := fun h => by
    have : 1 ≤ s.cfg.queueCapacity := hc
    omega
  rw [runAll_of_microStep
    (s' := ({ s with
      q := { fifo := [], inflight := some { c with cur := firstCursor c.variant } } }).continueAt op
        (devWriteKbd c.cmd ++ p))]
  · refine (runAll_devWriteKbd hw (rest := rest) (s := { s with
      q := { fifo := [], inflight := some { c with cur := firstCursor c.variant } } }) ha op c.cmd
      p).trans ?_
    congr 2
    simp only [keyboardWritten, exchanged, State.writesData]
    split
    · rfl
    · split <;> rfl
  · rw [microStep_continueAt, microExec]
    simp [State.queueFull, hi, hf, hcap, State.startFront, State.continueAt]

/-- `q_add` behind a command in flight (R191). -/
theorem runAll_queueAdd_behind {s : State} {c c₀ : Command} (hi : s.q.inflight = some c₀)
    (hf : s.q.fifo.length ≠ s.cfg.queueCapacity) (op : Option Instr) (p : List Micro) :
    runAll (s.continueAt op (.queueAdd c :: p)) =
      runAll (({ s with
        q := { fifo := s.q.fifo ++ [c], inflight := some c₀ } }).continueAt op p) := by
  apply runAll_of_microStep
  rw [microStep_continueAt, microExec]
  simp [State.queueFull, hi, hf, State.continueAt]

/-- `q_add` on a full FIFO (R191, R193). -/
theorem runAll_queueAdd_full {s : State} {c : Command}
    (hf : s.q.fifo.length = s.cfg.queueCapacity) (op : Option Instr) (p : List Micro) :
    runAll (s.continueAt op (.queueAdd c :: p)) = s.returns (.err (.queueFullCommand c)) := by
  rw [runAll_of_microStep (s' := s.returns (.err (.queueFullCommand c))), runAll_returns]
  rw [microStep_continueAt, microExec]
  simp [State.queueFull, hf]

/-- Only a row that goes on writes a byte: a finishing row and an unexpected byte write none (R207). -/
theorem checkerRow_write {c : Command} {b : Byte} (h : (checkerRow c b).ending ≠ .inProgress) :
    (checkerRow c b).write = none := by
  revert h
  unfold checkerRow
  split <;> simp only [ackRows] <;> (repeat' split) <;> simp

/-- Setting the queue before or after a keyboard write is the same. -/
theorem keyboardWritten_queue (s : State) (q : Queue) (w rest : List Byte) (d : Byte) :
    keyboardWritten { s with q := q } w rest d = { keyboardWritten s w rest d with q := q } := by
  simp only [keyboardWritten, exchanged, State.writesData]
  split
  · rfl
  · split <;> rfl

/-- `Finish` (R208): the next queued command starts, or the slot is empty. -/
theorem runAll_finishCommand {s : State} {w rest : List Byte}
    (ha : s.env.answers = w ++ rest) (hw : if s.q.fifo = [] then w = [] else InputWait w)
    (op : Option Instr) (p : List Micro) :
    runAll (s.continueAt op (.finishCommand :: p)) =
      runAll ((match s.q.fifo with
        | [] => { s with q := { fifo := [], inflight := none } }
        | n :: ns =>
          { keyboardWritten s w rest n.cmd with
            q := { fifo := ns, inflight := some { n with cur := firstCursor n.variant } } }
        ).continueAt op p) := by
  obtain ⟨cfg, ctl, ⟨fifo, inflight⟩, ks, env, host, dec, n, g⟩ := s
  cases fifo with
  | nil => exact runAll_of_microStep rfl
  | cons c ns =>
    simp only [reduceCtorEq, if_false] at hw
    rw [runAll_of_microStep (s' := (State.mk cfg ctl
      { fifo := ns, inflight := some { c with cur := firstCursor c.variant } } ks env host dec
      n g).continueAt op (devWriteKbd c.cmd ++ p)) rfl]
    refine (runAll_devWriteKbd hw (rest := rest) (s := State.mk cfg ctl
      { fifo := ns, inflight := some { c with cur := firstCursor c.variant } } ks env host dec n g)
      ha op c.cmd p).trans ?_
    congr 2
    exact keyboardWritten_queue
      { cfg := cfg, ctl := ctl, q := { fifo := c :: ns, inflight := inflight }, ks := ks,
        env := env, host := host, decoder := dec, freeCount := n, grain := g } _ w rest c.cmd

/-- The steps of a checker's row (R194, R207, R208, R210). -/
theorem runAll_rowSteps {s : State} {c : Command} {b : Byte} {w rest : List Byte}
    (ha : RowAnswers s (checkerRow c b) w rest) (op : Option Instr) (p : List Micro) :
    runAll (s.continueAt op (rowSteps (checkerRow c b) ++ p)) =
      runAll ((rowDone s (checkerRow c b) w rest).continueAt op p) := by
  have hwrite := @checkerRow_write c b
  generalize checkerRow c b = row at ha hwrite
  obtain ⟨write, after, ending⟩ := row
  obtain ⟨ha, hw⟩ := ha
  cases ending with
  | inProgress =>
    cases write with
    | none => exact runAll_of_microStep rfl
    | some d =>
      simp only [rowBytes, Option.toList, List.cons_ne_nil, if_false] at hw
      have e : rowSteps ⟨some d, after, .inProgress⟩ ++ p =
          devWriteKbd d ++ (.setInflight after :: p) := by simp [rowSteps, rowWrite]
      rw [e, runAll_devWriteKbd hw ha, runAll_of_microStep rfl]
      simp [rowDone, rowWritten, rowBytes, rowQueue, State.continueAt]
  | finished =>
    have hn : write = none := hwrite (by simp)
    subst hn
    have e : rowSteps ⟨none, after, .finished⟩ ++ p = .finishCommand :: p := rfl
    have hw' : if s.q.fifo = [] then w = [] else InputWait w := by
      cases hf : s.q.fifo with
      | nil => simpa [rowBytes, hf] using hw
      | cons n ns => simpa [rowBytes, hf] using hw
    rw [e, runAll_finishCommand ha hw']
    congr 2
    simp only [rowDone, rowWritten, rowBytes, rowQueue]
    cases s.q.fifo <;> rfl
  | unexpected =>
    have hn : write = none := hwrite (by simp)
    subst hn
    rfl

end Sys2Proof.Machine
end

