-- ==== Sys2Proof/Laws/Exec.lean ====
section
/-! SUPPORT. What `exec` and `step` can do, said once: an instruction accepted by an idle block ends
at once with an error or starts its micro-sequence and runs it; and the induction over steps that every
invariant of the machine goes through. -/

namespace Sys2Proof.Machine

open Sys2Proof.Safety

/-- The micro-sequence an instruction starts in a state that passes its checks, and how many command
records it takes free values for. -/
def Starts (i : Instr) (s : State) (k : Nat) (prog : List Micro) : Prop :=
  match i with
  | .readStatus => k = 0 ∧ prog = [.reportStatus]
  | .startInit =>
    s.ctl.state = .initController ∧ k = 0 ∧ prog = initSequence ++ [.ret (.ok .unit)]
  | .setTranslation en =>
    s.ctl.state = .devicesDisabled ∧ k = 0 ∧
      prog = readCbToCb ++ [.cbSetTranslate en] ++ writeCb ++ [.ret (.ok .unit)]
  | .selfTest => s.ctl.state = .devicesDisabled ∧ k = 0 ∧ prog = selfTestSteps
  | .keyboardInterfaceTest =>
    s.ctl.state = .devicesDisabled ∧ k = 0 ∧ prog = testSteps .keyboard ++ [.ret (.ok .unit)]
  | .auxInterfaceTest =>
    s.ctl.state = .devicesDisabled ∧ k = 0 ∧ prog = testSteps .auxiliary ++ [.ret (.ok .unit)]
  | .ramRead idx =>
    s.ctl.state = .devicesDisabled ∧ idx ≠ 0 ∧ k = 0 ∧
      prog = ctlCmdResp (0x20 + idx.zeroExtend 8) ++ [.returnResponse]
  | .ramWrite idx v =>
    s.ctl.state = .devicesDisabled ∧ idx ≠ 0 ∧ k = 0 ∧
      prog = ctlCmdData (0x60 + idx.zeroExtend 8) v ++ [.ret (.ok .unit)]
  | .cpuReset =>
    s.ctl.state = .devicesDisabled ∧ k = 0 ∧ prog = ctlCmd 0xFE ++ [.ret (.ok .unit)]
  | .enableDevices sel =>
    s.ctl.state = .devicesDisabled ∧ k = 0 ∧
      ∃ d, sel = selectorMask d ∧ prog = enableSequence d false
  | .enableDevicesAndInterrupts sel =>
    s.ctl.state = .devicesDisabled ∧ k = 0 ∧
      ∃ d, sel = selectorMask d ∧ prog = enableSequence d true
  | .sendToKeyboard b =>
    s.ctl.state = .enabledDevices ∧ s.ctl.sel.getLsbD 0 = true ∧ k = 0 ∧
      prog = devWriteKbd b ++ [.ret (.ok .unit)]
  | .sendToAuxiliaryDevice b =>
    s.ctl.state = .enabledDevices ∧ s.ctl.sel.getLsbD 1 = true ∧ k = 0 ∧
      prog = devWriteAux b ++ [.ret (.ok .unit)]
  | .pollData => s.ctl.state = .enabledDevices ∧ k = 0 ∧ prog = [.pollOwner]
  | .disableDevices =>
    s.ctl.state = .enabledDevices ∧ k = 0 ∧
      prog = if s.ctl.irq then initSequence ++ [.ret (.ok .unit)]
        else ctlCmd 0xAD ++ ctlCmd 0xA7 ++ [.enterDisabled, .ret (.ok .unit)]
  | .kbdReceive b => SessionOpen s ∧ k = 0 ∧ prog = sessionReceive s b
  | .kbdDisable =>
    SessionOpen s ∧ k = 1 ∧
      prog = [.queueAdd (newCommand .ackResponse 0xF5 none s.freeCount), .ret (.ok .unit)]
  | .kbdSetDefaults =>
    SessionOpen s ∧ k = 1 ∧
      prog = [.queueAdd (newCommand .ackResponse 0xF6 none s.freeCount), .ret (.ok .unit)]
  | .kbdEnable =>
    SessionOpen s ∧ k = 1 ∧
      prog = [.queueAdd (newCommand .ackResponse 0xF4 none s.freeCount), .ret (.ok .unit)]
  | .kbdSetLeds leds =>
    SessionOpen s ∧ k = 1 ∧
      prog = [.queueAdd (newCommand .sendCommandAndData 0xED (some leds) s.freeCount),
        .ret (.ok .unit)]
  | .kbdSetTypematic rate =>
    SessionOpen s ∧ rate.getLsbD 7 = false ∧ k = 1 ∧
      prog = [.queueAdd (newCommand .sendCommandAndData 0xF3 (some rate) s.freeCount),
        .ret (.ok .unit)]
  | .kbdSelectScancodeSet n =>
    SessionOpen s ∧ k = 2 ∧
      prog = [.queueAdd (newCommand .sendCommandAndData 0xF0 (some n) s.freeCount),
        .queueAdd
          (newCommand .sendCommandAndDataAndReceiveResponse 0xF0 (some 0x00) (s.freeCount + 3)),
        .ret (.ok .unit)]
  | .kbdReadId =>
    SessionOpen s ∧ k = 1 ∧
      prog = [.queueAdd (newCommand .ackResponseWithReturnTwoBytes 0xF2 none s.freeCount),
        .ret (.ok .unit)]
  | .kbdEcho =>
    SessionOpen s ∧ k = 1 ∧
      prog = [.queueAdd (newCommand .echo 0xEE none s.freeCount), .ret (.ok .unit)]
  | .ctlReadCommandByte => k = 0 ∧ prog = ctlCmdResp 0x20
  | .ctlReadRam idx => k = 0 ∧ prog = ctlCmdResp (readRamByte idx)
  | .ctlWriteCommandByte d => k = 0 ∧ prog = ctlCmdData 0x60 d
  | .ctlWriteRam idx d => k = 0 ∧ prog = ctlCmdData (writeRamByte idx) d
  | .ctlDisableAux => k = 0 ∧ prog = ctlCmd 0xA7
  | .ctlEnableAux => k = 0 ∧ prog = ctlCmd 0xA8
  | .ctlAuxTest => k = 0 ∧ prog = ctlCmdResp 0xA9
  | .ctlSelfTest => k = 0 ∧ prog = ctlCmdResp 0xAA
  | .ctlKbdTest => k = 0 ∧ prog = ctlCmdResp 0xAB
  | .ctlDisableKbd => k = 0 ∧ prog = ctlCmd 0xAD
  | .ctlEnableKbd => k = 0 ∧ prog = ctlCmd 0xAE
  | .ctlWriteToAux d => k = 0 ∧ prog = ctlCmdData 0xD4 d
  | .ctlPulseOutput _ => k = 0 ∧ prog = ctlCmd 0xFE
  | .devSetIndicators p =>
    SessionOpen s ∧ k = 1 ∧
      prog = [.queueAdd (newCommand .sendCommandAndData 0xED (some p) s.freeCount),
        .ret (.ok .unit)]
  | .devEcho =>
    SessionOpen s ∧ k = 1 ∧
      prog = [.queueAdd (newCommand .echo 0xEE none s.freeCount),
        .ret (.ok .unit)]
  | .devSelectScancodeSet p =>
    SessionOpen s ∧ k = 1 ∧
      prog = [.queueAdd (newCommand
          (if p = 0x00 then .sendCommandAndDataAndReceiveResponse else .sendCommandAndData)
          0xF0 (some p) s.freeCount),
        .ret (.ok .unit)]
  | .devReadId =>
    SessionOpen s ∧ k = 1 ∧
      prog = [.queueAdd (newCommand .ackResponseWithReturnTwoBytes 0xF2 none s.freeCount),
        .ret (.ok .unit)]
  | .devSetTypematic p =>
    SessionOpen s ∧ k = 1 ∧
      prog = [.queueAdd (newCommand .sendCommandAndData 0xF3 (some p) s.freeCount),
        .ret (.ok .unit)]
  | .devEnable =>
    SessionOpen s ∧ k = 1 ∧
      prog = [.queueAdd (newCommand .ackResponse 0xF4 none s.freeCount),
        .ret (.ok .unit)]
  | .devDisable =>
    SessionOpen s ∧ k = 1 ∧
      prog = [.queueAdd (newCommand .ackResponse 0xF5 none s.freeCount),
        .ret (.ok .unit)]
  | .devSetDefaults =>
    SessionOpen s ∧ k = 1 ∧
      prog = [.queueAdd (newCommand .ackResponse 0xF6 none s.freeCount),
        .ret (.ok .unit)]
  | .respAck => SessionOpen s ∧ k = 0 ∧ prog = sessionReceive s 0xFA
  | .respResend => SessionOpen s ∧ k = 0 ∧ prog = sessionReceive s 0xFE
  | .respEchoReply => SessionOpen s ∧ k = 0 ∧ prog = sessionReceive s 0xEE
  | .respBatOk => SessionOpen s ∧ k = 0 ∧ prog = sessionReceive s 0xAA
  | .respBatFail => SessionOpen s ∧ k = 0 ∧ prog = sessionReceive s 0xFC
  | .respKeyDetectionOverrun =>
    SessionOpen s ∧ k = 0 ∧ prog = sessionReceive s s.cfg.overrunCode
  | .respSelfTestPassed | .respInterfaceTestPassed | .respClockLineLow | .respClockLineHigh
  | .respDataLineLow | .respDataLineHigh => False

theorem launch_next {i : Instr} {p : List Micro} {s t : State} (h : launch i p s = .next t) :
    t = advance (s.continueAt (some i) p) := by cases h; rfl

theorem inState_next {st : ProtocolState} {s t : State}
    {k : State → Host.Outcome State Fault Refusal} (h : inState st s k = .next t) :
    (s.ctl.state = st ∧ k s = .next t) ∨ t = s.returns (.err .wrongState) := by
  unfold inState at h
  split at h
  · exact .inl ⟨by assumption, h⟩
  · cases h; exact .inr rfl

theorem sessionGate_next {s t : State} {k : State → Host.Outcome State Fault Refusal}
    (h : sessionGate s k = .next t) :
    (SessionOpen s ∧ k s = .next t) ∨ ∃ e, t = s.returns (.err e) := by
  unfold sessionGate at h
  split at h
  · split at h
    · exact .inl ⟨⟨by assumption, by assumption⟩, h⟩
    · cases h; exact .inr ⟨_, rfl⟩
  · cases h; exact .inr ⟨_, rfl⟩

/-- An issued command ends at once or starts its `q_add` (44_keyboard_session.md R239). -/
theorem issue_next {i : Instr} {legal : Bool} {v : Variant} {cmd : Byte} {payload : Option Byte}
    {s t : State} (hi : s.ctl.upc = .idle) (h : issue i legal v cmd payload s = .next t) :
    (∃ e, t = (unanswered s).returns (.err e)) ∨
      (SessionOpen s ∧ legal = true ∧
        t = advance (((unanswered s).usesFree 1).continueAt (some i)
          [.queueAdd (newCommand v cmd payload s.freeCount), .ret (.ok .unit)])) := by
  rw [issue, accept_idle hi] at h
  rcases sessionGate_next h with ⟨hg, h⟩ | ⟨e, h⟩
  · split at h
    · split at h
      · cases h; exact .inl ⟨_, rfl⟩
      · exact .inr ⟨hg, by assumption, launch_next h⟩
    · cases h; exact .inl ⟨_, rfl⟩
  · exact .inl ⟨e, h⟩

theorem selectorOf_some {sel : BitVec 2} {d : EnableDevice} (h : selectorOf sel = some d) :
    sel = selectorMask d := by
  revert d; revert sel; decide

theorem enableOperation_next {i : Instr} {sel : BitVec 2} {irq : Bool} {s t : State}
    (hi : s.ctl.upc = .idle) (h : enableOperation i sel irq s = .next t) :
    (∃ e, t = (unanswered s).returns (.err e)) ∨
      (s.ctl.state = .devicesDisabled ∧ ∃ d, sel = selectorMask d ∧
        t = advance ((unanswered s).continueAt (some i) (enableSequence d irq))) := by
  rw [enableOperation, accept_idle hi] at h
  rcases inState_next h with ⟨hs, h⟩ | h
  · split at h
    · cases h; exact .inl ⟨_, rfl⟩
    · exact .inr ⟨hs, _, selectorOf_some (by assumption), launch_next h⟩
  · exact .inl ⟨_, h⟩

/-- A byte of keyboard data ends at the closed gate or starts the session's routing
(44_keyboard_session.md R251). -/
theorem receiveByte_next {op : Option Instr} {b : Byte} {s t : State} (hi : s.ctl.upc = .idle)
    (h : receiveByte op b s = .next t) :
    (∃ e, t = (unanswered s).returns (.err e)) ∨
      (SessionOpen s ∧ t = advance ((unanswered s).continueAt op (sessionReceive s b))) := by
  rw [receiveByte, accept_idle hi] at h
  rcases sessionGate_next h with ⟨hg, h⟩ | ⟨e, h⟩
  · cases h; exact .inr ⟨hg, rfl⟩
  · exact .inl ⟨e, h⟩

/-- A device command ends at the closed gate or starts its `q_add` (43_command_queue.md R191, R212). -/
theorem queueAddNew_next {i : Instr} {v : Variant} {cmd : Byte} {payload : Option Byte}
    {s t : State} (hi : s.ctl.upc = .idle) (h : queueAddNew i v cmd payload s = .next t) :
    (∃ e, t = (unanswered s).returns (.err e)) ∨
      (SessionOpen s ∧
        t = advance (((unanswered s).usesFree 1).continueAt (some i)
          [.queueAdd (newCommand v cmd payload s.freeCount), .ret (.ok .unit)])) := by
  rw [queueAddNew, accept_idle hi] at h
  rcases sessionGate_next h with ⟨hg, h⟩ | ⟨e, h⟩
  · exact .inr ⟨hg, launch_next h⟩
  · exact .inl ⟨e, h⟩

/-- The keyboard bytes with a row of their own are the routing of their byte (30_encoding.md R102). -/
theorem exec_keyboardByte {i : Instr} {b : Byte} {s : State} (h : keyboardByte s.cfg i = some b) :
    exec i s = receiveByte (some i) b s := by
  cases i <;> simp only [keyboardByte, reduceCtorEq, Option.some.injEq] at h <;> subst h <;> rfl

theorem receiveByte_open {op : Option Instr} {b : Byte} {s : State} (hi : s.ctl.upc = .idle)
    (hg : SessionOpen s) :
    receiveByte op b s = .next (advance ((unanswered s).continueAt op (sessionReceive s b))) := by
  rw [receiveByte, accept_idle hi, sessionGate_open (s := unanswered s) hg]; rfl

/-- Behind the closed gate no byte reaches the queue (70_reset_and_hazards.md R313). -/
theorem receiveByte_closed {op : Option Instr} {b : Byte} {s : State} (hi : s.ctl.upc = .idle)
    (hg : ¬ SessionOpen s) :
    receiveByte op b s = .next (answered s (.err (gateError s))) := by
  rw [receiveByte, accept_idle hi, sessionGate_error (s := unanswered s) hi hg]; rfl

/-- An awaited response is read into `ctl.resp` and the operation goes on with it (30_encoding.md R99). -/
theorem runsTo_of_response {i : Instr} {r c : Byte} {op : Option Instr} {p : List Micro} {s u : State}
    (he : exec i s = deliverResponse r s) (hu : s.ctl.upc = .running op (.takeResponse c :: p))
    (h : runAll (({ s.readsData r s.env.answers with
      ctl := { (s.readsData r s.env.answers).ctl with resp := r } }).continueAt op p) = u) :
    RunsTo i s u := by
  have e : exec i s = .next (State.goOn (({ s.readsData r s.env.answers with
      ctl := { (s.readsData r s.env.answers).ctl with resp := r } }).continueAt op p) 1) := by
    rw [he]; unfold deliverResponse; rw [hu]
  exact ⟨⟨_, e, (runAll_goOn _ _).trans h⟩, fun g => by rw [e, goOn_whole (by exact g), h]⟩

theorem deliverResponse_idle {r : Byte} {s t : State} (hi : s.ctl.upc = .idle)
    (h : deliverResponse r s = .next t) : t = s := by
  unfold deliverResponse at h
  rw [hi] at h
  cases h; rfl

/-- An instruction given to an idle block does nothing (a response nothing awaits), ends at once with
an error, or starts its sequence and runs it. -/
theorem exec_idle_cases {i : Instr} {s t : State} (hi : s.ctl.upc = .idle)
    (h : exec i s = .next t) :
    t = s ∨ (∃ e, t = (unanswered s).returns (.err e)) ∨
      ∃ k prog, Starts i s k prog ∧
        t = advance (((unanswered s).usesFree k).continueAt (some i) prog) := by
  have start : ∀ {k prog}, Starts i s k prog →
      t = advance (((unanswered s).usesFree k).continueAt (some i) prog) →
      t = s ∨ (∃ e, t = (unanswered s).returns (.err e)) ∨
        ∃ k prog, Starts i s k prog ∧
          t = advance (((unanswered s).usesFree k).continueAt (some i) prog) :=
    fun hs ht => .inr (.inr ⟨_, _, hs, ht⟩)
  have fails : ∀ {e}, t = (unanswered s).returns (.err e) →
      t = s ∨ (∃ e, t = (unanswered s).returns (.err e)) ∨
        ∃ k prog, Starts i s k prog ∧
          t = advance (((unanswered s).usesFree k).continueAt (some i) prog) :=
    fun ht => .inr (.inl ⟨_, ht⟩)
  cases i
  case readStatus =>
    rw [exec, execReadStatus, accept_idle hi] at h
    exact start ⟨rfl, rfl⟩ (launch_next h)
  case startInit =>
    rw [exec, execStartInit, accept_idle hi] at h
    rcases inState_next h with ⟨hs, h⟩ | h
    · exact start ⟨hs, rfl, rfl⟩ (launch_next h)
    · exact fails h
  case setTranslation en =>
    rw [exec, execSetTranslation, accept_idle hi] at h
    rcases inState_next h with ⟨hs, h⟩ | h
    · exact start ⟨hs, rfl, rfl⟩ (launch_next h)
    · exact fails h
  case selfTest =>
    rw [exec, execSelfTest, accept_idle hi] at h
    rcases inState_next h with ⟨hs, h⟩ | h
    · exact start ⟨hs, rfl, rfl⟩ (launch_next h)
    · exact fails h
  case keyboardInterfaceTest =>
    rw [exec, execKeyboardInterfaceTest, accept_idle hi] at h
    rcases inState_next h with ⟨hs, h⟩ | h
    · exact start ⟨hs, rfl, rfl⟩ (launch_next h)
    · exact fails h
  case auxInterfaceTest =>
    rw [exec, execAuxInterfaceTest, accept_idle hi] at h
    rcases inState_next h with ⟨hs, h⟩ | h
    · exact start ⟨hs, rfl, rfl⟩ (launch_next h)
    · exact fails h
  case ramRead idx =>
    rw [exec, execRamRead, accept_idle hi] at h
    rcases inState_next h with ⟨hs, h⟩ | h
    · split at h
      · cases h; exact fails rfl
      · exact start ⟨hs, by assumption, rfl, rfl⟩ (launch_next h)
    · exact fails h
  case ramWrite idx v =>
    rw [exec, execRamWrite, accept_idle hi] at h
    rcases inState_next h with ⟨hs, h⟩ | h
    · split at h
      · cases h; exact fails rfl
      · exact start ⟨hs, by assumption, rfl, rfl⟩ (launch_next h)
    · exact fails h
  case cpuReset =>
    rw [exec, execCpuReset, accept_idle hi] at h
    rcases inState_next h with ⟨hs, h⟩ | h
    · exact start ⟨hs, rfl, rfl⟩ (launch_next h)
    · exact fails h
  case enableDevices sel =>
    rcases enableOperation_next hi h with ⟨e, h⟩ | ⟨hs, d, hd, h⟩
    · exact fails h
    · exact start ⟨hs, rfl, d, hd, rfl⟩ h
  case enableDevicesAndInterrupts sel =>
    rcases enableOperation_next hi h with ⟨e, h⟩ | ⟨hs, d, hd, h⟩
    · exact fails h
    · exact start ⟨hs, rfl, d, hd, rfl⟩ h
  case sendToKeyboard b =>
    rw [exec, execSendToKeyboard, accept_idle hi] at h
    rcases inState_next h with ⟨hs, h⟩ | h
    · split at h
      · exact start ⟨hs, by assumption, rfl, rfl⟩ (launch_next h)
      · cases h; exact fails rfl
    · exact fails h
  case sendToAuxiliaryDevice b =>
    rw [exec, execSendToAuxiliaryDevice, accept_idle hi] at h
    rcases inState_next h with ⟨hs, h⟩ | h
    · split at h
      · exact start ⟨hs, by assumption, rfl, rfl⟩ (launch_next h)
      · cases h; exact fails rfl
    · exact fails h
  case pollData =>
    rw [exec, execPollData, accept_idle hi] at h
    rcases inState_next h with ⟨hs, h⟩ | h
    · exact start ⟨hs, rfl, rfl⟩ (launch_next h)
    · exact fails h
  case disableDevices =>
    rw [exec, execDisableDevices, accept_idle hi] at h
    rcases inState_next h with ⟨hs, h⟩ | h
    · split at h
      · exact start ⟨hs, rfl, (if_pos (by assumption)).symm⟩ (launch_next h)
      · exact start ⟨hs, rfl, (if_neg (by assumption)).symm⟩ (launch_next h)
    · exact fails h
  case kbdReceive b =>
    rcases receiveByte_next hi h with ⟨e, h⟩ | ⟨hg, h⟩
    · exact fails h
    · exact start ⟨hg, rfl, rfl⟩ h
  case respAck | respResend | respEchoReply | respBatOk | respBatFail | respKeyDetectionOverrun =>
    rcases receiveByte_next hi h with ⟨e, h⟩ | ⟨hg, h⟩
    · exact fails h
    · exact start ⟨hg, rfl, rfl⟩ h
  case devSetIndicators | devSelectScancodeSet | devSetTypematic =>
    rcases queueAddNew_next hi h with ⟨e, h⟩ | ⟨hg, h⟩
    · exact fails h
    · exact start ⟨hg, rfl, rfl⟩ h
  case devEcho | devReadId | devEnable | devDisable | devSetDefaults =>
    rcases queueAddNew_next hi h with ⟨e, h⟩ | ⟨hg, h⟩
    · exact fails h
    · exact start ⟨hg, rfl, rfl⟩ h
  case kbdSetTypematic rate =>
    rcases issue_next hi h with ⟨e, h⟩ | ⟨hg, hl, h⟩
    · exact fails h
    · exact start ⟨hg, by simpa [typematicLegal] using hl, rfl, rfl⟩ h
  case kbdSelectScancodeSet n =>
    rw [exec, execKbdSelectScancodeSet, accept_idle hi] at h
    rcases sessionGate_next h with ⟨hg, h⟩ | ⟨e, h⟩
    · split at h
      · split at h
        · cases h; exact fails rfl
        · exact start ⟨hg, rfl, rfl⟩ (launch_next h)
      · cases h; exact fails rfl
    · exact fails h
  case kbdDisable | kbdSetDefaults | kbdEnable | kbdReadId | kbdEcho =>
    rcases issue_next hi h with ⟨e, h⟩ | ⟨hg, _, h⟩
    · exact fails h
    · exact start ⟨hg, rfl, rfl⟩ h
  case kbdSetLeds =>
    rcases issue_next hi h with ⟨e, h⟩ | ⟨hg, _, h⟩
    · exact fails h
    · exact start ⟨hg, rfl, rfl⟩ h
  case ctlPulseOutput mask =>
    rw [exec, execCtlPulseOutput] at h
    split at h
    · rename_i hm
      subst hm
      rw [plainCommand, accept_idle hi] at h
      exact start ⟨rfl, rfl⟩ (launch_next h)
    · cases h
  case respSelfTestPassed | respInterfaceTestPassed | respClockLineLow | respClockLineHigh |
      respDataLineLow | respDataLineHigh =>
    exact .inl (deliverResponse_idle hi h)
  all_goals
    rw [exec] at h
    simp only [execCtlReadCommandByte, execCtlReadRam, execCtlWriteCommandByte, execCtlWriteRam,
      execCtlDisableAux, execCtlEnableAux, execCtlAuxTest, execCtlSelfTest, execCtlKbdTest,
      execCtlDisableKbd, execCtlEnableKbd, execCtlWriteToAux, plainCommand, parameterCommand,
      responseCommand] at h
    rw [accept_idle hi] at h
    exact start ⟨rfl, rfl⟩ (launch_next h)

/-- A step of a running block runs its sequence on: the execution of a response byte as an instruction
is the same as reading it in the sequence (41_port_handshake.md R139, R141). -/
theorem step_running {s : State} {op : Option Instr} {p : List Micro}
    (hr : s.host.resetLine = false) (h : s.ctl.upc = .running op p) :
    step s = .next (advance s) := by
  unfold step
  rw [hr, h]
  simp only [Bool.false_eq_true, if_false]
  unfold awaitedResponse
  split
  · rename_i w ans haw
    split at haw
    · rename_i after p' r bs hans
      cases haw
      rw [decode]
      split
      · rename_i i hd
        have key : ∀ r', r = r' →
            deliverResponse r' { s with env := { s.env with answers := ans } } =
              .next (advance s) := by
          rintro r' rfl
          unfold deliverResponse
          simp only [h]
          have hm : microStep s = some (({ s.readsData r ans with
              ctl := { (s.readsData r ans).ctl with resp := r } }).continueAt op p') := by
            unfold microStep
            rw [h]
            simp only [microExec, hans]
          rw [advance_of_microStep hm rfl]
          rfl
        simp only [decodeControllerResponse] at hd
        split at hd
        · split at hd
          · cases hd; exact key _ (by assumption)
          · cases hd
        · split at hd
          · split at hd <;> cases hd <;> exact key _ (BitVec.eq_of_toNat_eq (by assumption))
          · cases hd
      · rfl
    · cases haw
  · rfl

/-- The induction over steps: what reset keeps, every micro-step keeps, a change of the host's words
and result keeps, and the start of every sequence keeps, every step keeps. -/
theorem step_induction {P : State → Prop}
    (hreset : ∀ s, P s → P s.resetBlock)
    (hmicro : ∀ s s', P s → microStep s = some s' → P s')
    (hhost : ∀ s ws r, P s → P { s with host := { s.host with presented := ws, result := r } })
    (herror : ∀ s r, P s → s.ctl.upc = .idle → P (s.returns r))
    (hstart : ∀ s i k prog, P s → s.ctl.upc = .idle → Starts i s k prog →
      P ((s.usesFree k).continueAt (some i) prog))
    (hreceive : ∀ s b, P s → s.ctl.upc = .idle → SessionOpen s →
      P (s.continueAt none (sessionReceive s b)))
    {s t : State} (h : P s) (hs : step s = .next t) : P t := by
  cases hr : s.host.resetLine with
  | true =>
    unfold step at hs
    rw [if_pos hr] at hs
    cases hs
    exact hreset s h
  | false =>
    cases hu : s.ctl.upc with
    | running op p =>
      rw [step_running hr hu] at hs
      cases hs
      exact advance_induction hmicro h
    | idle =>
      unfold step at hs
      rw [if_neg (by simp [hr]), hu] at hs
      split at hs
      · contradiction
      · split at hs
        · cases hs; exact h
        · rename_i w ws hp
          have h' := hhost s ws s.host.result h
          have unans : ∀ s', P s' → P (unanswered s') := fun s' hs' =>
            hhost s' s'.host.presented none hs'
          dsimp only at hs
          split at hs
          · rcases exec_idle_cases (by exact hu) hs with rfl | ⟨e, rfl⟩ | ⟨k, prog, hst, rfl⟩
            · exact h'
            · exact herror _ _ (unans _ h') hu
            · exact advance_induction hmicro (hstart _ _ k prog (unans _ h') hu (by
                revert hst; cases ‹Instr› <;> exact id))
          · rename_i r hd
            cases r with
            | unknownOperation => cases hs; exact herror _ _ h' hu
            | plainKeyboardByte b =>
              rcases receiveByte_next (by exact hu) hs with ⟨e, rfl⟩ | ⟨hg, rfl⟩
              · exact herror _ _ (unans _ h') hu
              · exact advance_induction hmicro (hreceive _ b (unans _ h') hu hg)
            | plainResponse b => cases hs; exact h'
            | notAControllerCommand b => cases hs
            | notADeviceCommand b => cases hs

end Sys2Proof.Machine
end

