-- ==== Sys2Proof/Laws/PerInstr.lean ====
section
/-! SUPPORT. Decoding the encoding, one lemma per instruction: the word the encoder writes for a
well-formed instruction decodes to it, every operand at every value. -/

namespace Sys2Proof.Laws.DecodeEncode

/-- The word of a well-formed instruction decodes to the instruction. -/
def Statement (i : Instr) : Prop :=
  ∀ cfg, i.wellFormed cfg = true → decode cfg (encode cfg i) = .ok i

theorem readStatus : Statement .readStatus := by
  intro cfg _; rfl

theorem startInit : Statement .startInit := by
  intro cfg _; rfl

theorem setTranslation (en : Bool) : Statement (.setTranslation en) := by
  intro cfg _; cases en <;> rfl

theorem selfTest : Statement .selfTest := by
  intro cfg _; rfl

theorem keyboardInterfaceTest : Statement .keyboardInterfaceTest := by
  intro cfg _; rfl

theorem auxInterfaceTest : Statement .auxInterfaceTest := by
  intro cfg _; rfl

theorem ramRead (idx : BitVec 5) : Statement (.ramRead idx) := by
  intro cfg _
  simp [encode, decode, decodeRequest, extract_index]

theorem ramWrite (idx : BitVec 5) (v : Byte) : Statement (.ramWrite idx v) := by
  intro cfg _
  simp [encode, decode, decodeRequest, extract_index]

theorem cpuReset : Statement .cpuReset := by
  intro cfg _; rfl

theorem enableDevices (sel : BitVec 2) : Statement (.enableDevices sel) := by
  intro cfg _
  simp [encode, decode, decodeRequest, extract_selector]

theorem enableDevicesAndInterrupts (sel : BitVec 2) : Statement (.enableDevicesAndInterrupts sel) := by
  intro cfg _
  simp [encode, decode, decodeRequest, extract_selector]

theorem sendToKeyboard (b : Byte) : Statement (.sendToKeyboard b) := by
  intro cfg _
  simp [encode, decode, decodeRequest]

theorem sendToAuxiliaryDevice (b : Byte) : Statement (.sendToAuxiliaryDevice b) := by
  intro cfg _
  simp [encode, decode, decodeRequest]

theorem pollData : Statement .pollData := by
  intro cfg _; rfl

theorem disableDevices : Statement .disableDevices := by
  intro cfg _; rfl

theorem kbdReceive (b : Byte) : Statement (.kbdReceive b) := by
  intro cfg _
  simp [encode, decode, decodeRequest]

theorem kbdDisable : Statement .kbdDisable := by
  intro cfg _; rfl

theorem kbdSetDefaults : Statement .kbdSetDefaults := by
  intro cfg _; rfl

theorem kbdEnable : Statement .kbdEnable := by
  intro cfg _; rfl

theorem kbdSetLeds (leds : Byte) : Statement (.kbdSetLeds leds) := by
  intro cfg _
  simp [encode, decode, decodeRequest]

theorem kbdSetTypematic (rate : Byte) : Statement (.kbdSetTypematic rate) := by
  intro cfg _
  simp [encode, decode, decodeRequest]

theorem kbdSelectScancodeSet (n : Byte) : Statement (.kbdSelectScancodeSet n) := by
  intro cfg _
  simp [encode, decode, decodeRequest]

theorem kbdReadId : Statement .kbdReadId := by
  intro cfg _; rfl

theorem kbdEcho : Statement .kbdEcho := by
  intro cfg _; rfl

theorem ctlReadCommandByte : Statement .ctlReadCommandByte := by
  intro cfg _; rfl

theorem ctlReadRam (idx : BitVec 5) : Statement (.ctlReadRam idx) := by
  intro cfg h
  have hi : idx ≠ 0 := by simpa [Instr.wellFormed] using h
  obtain ⟨h1, h2⟩ := readRamByte_fields idx
  simp only [encode, decode, decodeControllerCommand, h1, h2, hi, if_true, if_false]

theorem ctlWriteCommandByte (d : Byte) : Statement (.ctlWriteCommandByte d) := by
  intro cfg _; rfl

theorem ctlWriteRam (idx : BitVec 5) (d : Byte) : Statement (.ctlWriteRam idx d) := by
  intro cfg h
  have hi : idx ≠ 0 := by simpa [Instr.wellFormed] using h
  obtain ⟨h1, h2⟩ := writeRamByte_fields idx
  have h3 : ¬ ((0b011 : BitVec 3) = 0b001) := by decide
  simp only [encode, decode, decodeControllerCommand, h1, h2, h3, hi, if_true, if_false]

theorem ctlDisableAux : Statement .ctlDisableAux := by
  intro cfg _; rfl

theorem ctlEnableAux : Statement .ctlEnableAux := by
  intro cfg _; rfl

theorem ctlAuxTest : Statement .ctlAuxTest := by
  intro cfg _; rfl

theorem ctlSelfTest : Statement .ctlSelfTest := by
  intro cfg _; rfl

theorem ctlKbdTest : Statement .ctlKbdTest := by
  intro cfg _; rfl

theorem ctlDisableKbd : Statement .ctlDisableKbd := by
  intro cfg _; rfl

theorem ctlEnableKbd : Statement .ctlEnableKbd := by
  intro cfg _; rfl

theorem ctlWriteToAux (d : Byte) : Statement (.ctlWriteToAux d) := by
  intro cfg _; rfl

theorem ctlPulseOutput (mask : BitVec 4) : Statement (.ctlPulseOutput mask) := by
  intro cfg h
  have hm : mask = 0b1110 := by simpa [Instr.wellFormed] using h
  subst hm; rfl

theorem devSetIndicators (payload : Byte) : Statement (.devSetIndicators payload) := by
  intro cfg _; rfl

theorem devEcho : Statement .devEcho := by
  intro cfg _; rfl

theorem devSelectScancodeSet (payload : Byte) : Statement (.devSelectScancodeSet payload) := by
  intro cfg _; rfl

theorem devReadId : Statement .devReadId := by
  intro cfg _; rfl

theorem devSetTypematic (payload : Byte) : Statement (.devSetTypematic payload) := by
  intro cfg _; rfl

theorem devEnable : Statement .devEnable := by
  intro cfg _; rfl

theorem devDisable : Statement .devDisable := by
  intro cfg _; rfl

theorem devSetDefaults : Statement .devSetDefaults := by
  intro cfg _; rfl

theorem respAck : Statement .respAck := by
  intro cfg h
  have hb : (0xFA : Byte) ≠ cfg.overrunCode := fun e => by simp [Instr.wellFormed, ← e] at h
  simp only [encode, decode, decodeKeyboardByte, hb, if_false]; rfl

theorem respResend : Statement .respResend := by
  intro cfg h
  have hb : (0xFE : Byte) ≠ cfg.overrunCode := fun e => by simp [Instr.wellFormed, ← e] at h
  simp only [encode, decode, decodeKeyboardByte, hb, if_false]; rfl

theorem respEchoReply : Statement .respEchoReply := by
  intro cfg h
  have hb : (0xEE : Byte) ≠ cfg.overrunCode := fun e => by simp [Instr.wellFormed, ← e] at h
  simp only [encode, decode, decodeKeyboardByte, hb, if_false]; rfl

theorem respBatOk : Statement .respBatOk := by
  intro cfg h
  have hb : (0xAA : Byte) ≠ cfg.overrunCode := fun e => by simp [Instr.wellFormed, ← e] at h
  simp only [encode, decode, decodeKeyboardByte, hb, if_false]; rfl

theorem respBatFail : Statement .respBatFail := by
  intro cfg h
  have hb : (0xFC : Byte) ≠ cfg.overrunCode := fun e => by simp [Instr.wellFormed, ← e] at h
  simp only [encode, decode, decodeKeyboardByte, hb, if_false]; rfl

theorem respKeyDetectionOverrun : Statement .respKeyDetectionOverrun := by
  intro cfg _
  simp [encode, decode, decodeKeyboardByte]

theorem respSelfTestPassed : Statement .respSelfTestPassed := by
  intro cfg _; rfl

theorem respInterfaceTestPassed : Statement .respInterfaceTestPassed := by
  intro cfg _; rfl

theorem respClockLineLow : Statement .respClockLineLow := by
  intro cfg _; rfl

theorem respClockLineHigh : Statement .respClockLineHigh := by
  intro cfg _; rfl

theorem respDataLineLow : Statement .respDataLineLow := by
  intro cfg _; rfl

theorem respDataLineHigh : Statement .respDataLineHigh := by
  intro cfg _; rfl

end Sys2Proof.Laws.DecodeEncode
end

