-- ==== Sys2Proof/Tests/Slice0.lean ====
section
/-! SUPPORT. The model's own tests. The expected values are the spec's: the words of 30_encoding.md and
the vectors of 95_test_vectors.md, cited at each test. The witnesses at the end show, for every
statement with hypotheses, a concrete state and operands that meet them all. -/

namespace Sys2Proof.Tests

open Sys2Proof.Machine Sys2Proof.Safety

/-! Helpers. -/

/-- The next state, if there is one. -/
def nextState (o : Host.Outcome State Fault Refusal) : Option State :=
  match o with
  | .next s => some s
  | .fault _ => none
  | .refused _ => none

/-- A state in a protocol state with a selector and an interrupt flag, the answers still to come
listed. One step goes as far as they allow. -/
def inMode (st : ProtocolState) (sel : BitVec 2) (irq : Bool) (answers : List Byte) : State :=
  { State.reset with
    grain := none
    ctl := { State.reset.ctl with state := st, sel := sel, irq := irq }
    env := { State.reset.env with answers := answers } }

/-- `DevicesDisabled`. -/
def disabled (answers : List Byte) : State := inMode .devicesDisabled 0 false answers

/-- `EnabledDevices` with a selector, interrupts off. -/
def enabled (sel : BitVec 2) (answers : List Byte) : State :=
  inMode .enabledDevices sel false answers

/-- A state with a queue. -/
def withQueue (s : State) (fifo : List Command) (inflight : Option Command) : State :=
  { s with q := { fifo := fifo, inflight := inflight } }

/-- A command record whose captured bytes are zero. -/
def record (v : Variant) (cmd data : Byte) (cur : Cursor) : Command :=
  { variant := v, cmd := cmd, data := data, cur := cur, r1 := 0, r2 := 0 }

/-- A state with a word presented. -/
def presenting (s : State) (w : Presented) : State :=
  { s with host := { s.host with presented := [w] } }

/-- The state after one step on a request word. -/
def afterRequest (s : State) (w : RequestWord) : Option State :=
  nextState (step (presenting s (.request w)))

/-- The state after one step on a keyboard byte. -/
def afterByte (s : State) (b : Byte) : Option State :=
  nextState (step (presenting s (.keyboardByte b)))

/-- Trace and result of a step. -/
def shown (s : Option State) : Option (List Txn × Option Result) :=
  s.map fun t => (t.env.trace, t.host.result)

/-- The queue and the status of a step. -/
def queueShown (s : Option State) : Option (List Txn × Option Command × Option Result) :=
  s.map fun t => (t.env.trace, t.q.inflight, t.host.result)

/-! Well-formedness: the ill-formed term of each check is refused. -/

theorem test_wellFormed_refuses_ramIndexZero :
    (Instr.ctlReadRam 0).wellFormed Config.documented = false ∧
    (Instr.ctlWriteRam 0 0x7E).wellFormed Config.documented = false := by decide

theorem test_wellFormed_refuses_otherPulses :
    (Instr.ctlPulseOutput 0b1111).wellFormed Config.documented = false ∧
    (Instr.ctlPulseOutput 0b0000).wellFormed Config.documented = false := by decide

theorem test_wellFormed_refuses_sentinels_taken_as_overrun :
    Instr.respAck.wellFormed { Config.documented with overrunCode := 0xFA } = false ∧
    Instr.respResend.wellFormed { Config.documented with overrunCode := 0xFE } = false ∧
    Instr.respEchoReply.wellFormed { Config.documented with overrunCode := 0xEE } = false ∧
    Instr.respBatOk.wellFormed { Config.documented with overrunCode := 0xAA } = false ∧
    Instr.respBatFail.wellFormed { Config.documented with overrunCode := 0xFC } = false := by decide

/-! Decoding: a word of every constructor, written out from 30_encoding.md. -/

/-- Requests of the status decoder and the controller FSM (R91, R92). -/
theorem test_decode_controller_requests :
    decodeTableWord 24 0x000000 = some .readStatus ∧
    decodeTableWord 24 0x010000 = some .startInit ∧
    decodeTableWord 24 0x100100 = some (.setTranslation true) ∧
    decodeTableWord 24 0x10FE00 = some (.setTranslation false) ∧
    decodeTableWord 24 0x110000 = some .selfTest ∧
    decodeTableWord 24 0x120000 = some .keyboardInterfaceTest ∧
    decodeTableWord 24 0x130000 = some .auxInterfaceTest ∧
    decodeTableWord 24 0x143F00 = some (.ramRead 0x1F) ∧
    decodeTableWord 24 0x15017E = some (.ramWrite 0x01 0x7E) ∧
    decodeTableWord 24 0x160000 = some .cpuReset ∧
    decodeTableWord 24 0x170100 = some (.enableDevices 0b01) ∧
    decodeTableWord 24 0x180700 = some (.enableDevicesAndInterrupts 0b11) ∧
    decodeTableWord 24 0x20F400 = some (.sendToKeyboard 0xF4) ∧
    decodeTableWord 24 0x21F400 = some (.sendToAuxiliaryDevice 0xF4) ∧
    decodeTableWord 24 0x220000 = some .pollData ∧
    decodeTableWord 24 0x230000 = some .disableDevices := by decide

/-- Requests of the keyboard session (R92), and codes that are none. -/
theorem test_decode_session_requests :
    decodeTableWord 24 0x30AA00 = some (.kbdReceive 0xAA) ∧
    decodeTableWord 24 0x310000 = some .kbdDisable ∧
    decodeTableWord 24 0x320000 = some .kbdSetDefaults ∧
    decodeTableWord 24 0x330000 = some .kbdEnable ∧
    decodeTableWord 24 0x340200 = some (.kbdSetLeds 0x02) ∧
    decodeTableWord 24 0x357F00 = some (.kbdSetTypematic 0x7F) ∧
    decodeTableWord 24 0x360300 = some (.kbdSelectScancodeSet 0x03) ∧
    decodeTableWord 24 0x370000 = some .kbdReadId ∧
    decodeTableWord 24 0x380000 = some .kbdEcho ∧
    decodeTableWord 24 0x390000 = none ∧
    decodeTableWord 24 0xFF0000 = none := by decide

/-- Controller commands (R95, R96, R97), the parameter in the second byte. -/
theorem test_decode_controller_commands :
    decodeTableWord 8 0x20 = some .ctlReadCommandByte ∧
    decodeTableWord 8 0x3F = some (.ctlReadRam 0x1F) ∧
    decodeTableWord 16 0x4460 = some (.ctlWriteCommandByte 0x44) ∧
    decodeTableWord 16 0x7E61 = some (.ctlWriteRam 0x01 0x7E) ∧
    decodeTableWord 8 0xA7 = some .ctlDisableAux ∧
    decodeTableWord 8 0xA8 = some .ctlEnableAux ∧
    decodeTableWord 8 0xA9 = some .ctlAuxTest ∧
    decodeTableWord 8 0xAA = some .ctlSelfTest ∧
    decodeTableWord 8 0xAB = some .ctlKbdTest ∧
    decodeTableWord 8 0xAD = some .ctlDisableKbd ∧
    decodeTableWord 8 0xAE = some .ctlEnableKbd ∧
    decodeTableWord 16 0xE8D4 = some (.ctlWriteToAux 0xE8) ∧
    decode Config.documented (.controllerCommand 0xFE 0) = .ok (.ctlPulseOutput 0b1110) ∧
    decode Config.documented (.controllerCommand 0xAC 0) = .error (.notAControllerCommand 0xAC) :=
  ⟨by decide, by decide, by decide, by decide, by decide, by decide, by decide, by decide, by decide,
    by decide, by decide, by decide, rfl, rfl⟩

/-- Device commands (R100), the payload in the second byte. -/
theorem test_decode_device_commands :
    decodeTableWord 16 0x02ED = some (.devSetIndicators 0x02) ∧
    decodeTableWord 8 0xEE = some .devEcho ∧
    decodeTableWord 16 0x03F0 = some (.devSelectScancodeSet 0x03) ∧
    decodeTableWord 8 0xF2 = some .devReadId ∧
    decodeTableWord 16 0x20F3 = some (.devSetTypematic 0x20) ∧
    decodeTableWord 8 0xF4 = some .devEnable ∧
    decodeTableWord 8 0xF5 = some .devDisable ∧
    decodeTableWord 8 0xF6 = some .devSetDefaults := by decide

/-- Responses (R99, R102): the same byte by its interface (R104). -/
theorem test_decode_responses :
    decode Config.documented (.keyboardByte 0xFA) = .ok .respAck ∧
    decode Config.documented (.keyboardByte 0xFE) = .ok .respResend ∧
    decode Config.documented (.keyboardByte 0xEE) = .ok .respEchoReply ∧
    decode Config.documented (.keyboardByte 0xAA) = .ok .respBatOk ∧
    decode Config.documented (.keyboardByte 0xFC) = .ok .respBatFail ∧
    decode Config.documented (.keyboardByte 0x00) = .ok .respKeyDetectionOverrun ∧
    decode Config.documented (.controllerResponse 0xAA 0x55) = .ok .respSelfTestPassed ∧
    decode Config.documented (.controllerResponse 0xA9 0x00) = .ok .respInterfaceTestPassed ∧
    decode Config.documented (.controllerResponse 0xAB 0x01) = .ok .respClockLineLow ∧
    decode Config.documented (.controllerResponse 0xAB 0x02) = .ok .respClockLineHigh ∧
    decode Config.documented (.controllerResponse 0xAB 0x03) = .ok .respDataLineLow ∧
    decode Config.documented (.controllerResponse 0xAB 0x04) = .ok .respDataLineHigh ∧
    decode Config.documented (.controllerResponse 0x20 0x55) = .error (.plainResponse 0x55) :=
  ⟨rfl, rfl, rfl, rfl, rfl, rfl, rfl, rfl, rfl, rfl, rfl, rfl, rfl⟩

/-! The status decoder (95 V1). -/

theorem test_decodeStatus_rows :
    decodeStatus false 0x15 = ⟨.ok, false, some .keyboardOrCommandController, false, true, false⟩ ∧
    decodeStatus false 0x20 = ⟨.ok, false, some .auxiliaryDevice, true, false, false⟩ ∧
    decodeStatus false 0xE1 = ⟨.err, true, some .auxiliaryDevice, true, false, false⟩ ∧
    decodeStatus false 0xFF = ⟨.err, true, some .auxiliaryDevice, false, true, true⟩ ∧
    decodeStatus true 0x10 = ⟨.ok, false, none, true, false, false⟩ := by decide

/-- `read_status` in `InitController` (V1). -/
theorem test_readStatus_in_initController :
    shown (afterRequest (inMode .initController 0 false [0x15]) 0x000000) =
      some ([.readStatus 0x15],
        some (.ok (.status
          ⟨.ok, false, some .keyboardOrCommandController, false, true, false⟩))) := by decide

/-! The controller FSM (95 V3, S5, S6, S9). -/

/-- `start_init` with a busy controller and a stale byte (V3.2). -/
theorem test_startInit_trace :
    shown (afterRequest (inMode .initController 0 false
        [0x00, 0x02, 0x00, 0x00, 0x00, 0x01, 0x1C, 0x00, 0x00, 0x00, 0x01, 0x65, 0x00, 0x00])
        0x010000) =
      some ([.readStatus 0x00, .writeCommand 0xAD, .readStatus 0x02, .readStatus 0x00,
          .readStatus 0x00, .writeCommand 0xA7, .readStatus 0x00, .readStatus 0x01,
          .readData 0x1C, .readStatus 0x00, .writeCommand 0x20, .readStatus 0x00,
          .readStatus 0x00, .readStatus 0x01, .readData 0x65, .readStatus 0x00,
          .writeCommand 0x60, .readStatus 0x00, .writeData 0x64],
        some (.ok .unit)) := by decide +kernel

/-- Its end state: `DevicesDisabled`, `cb` 0x64, `resp` 0x65, the command byte 0x64 (V3.2). -/
theorem test_startInit_state :
    (afterRequest (inMode .initController 0 false
        [0x00, 0x02, 0x00, 0x00, 0x00, 0x01, 0x1C, 0x00, 0x00, 0x00, 0x01, 0x65, 0x00, 0x00])
        0x010000).map (fun t => (t.ctl.state, t.ctl.cb, t.ctl.resp, Memory.read t.env.ram 0)) =
      some (.devicesDisabled, 0x64, 0x65, some 0x64) := by decide +kernel

/-- `set_translation` with command byte 0x65 and `en = 0` writes 0x25 (V3.3). -/
theorem test_setTranslation_clears :
    (afterRequest (disabled [0, 0, 0, 0x01, 0x65, 0, 0]) 0x100000).map
        (fun t => (t.ctl.cb, t.env.trace.getLast?)) =
      some (0x25, some (.writeData 0x25)) := by decide +kernel

/-- `self_test` answered 0xFC: the failure is reported, the command byte 0x65 restored (S9, S10). -/
theorem test_selfTest_failure_restores :
    (afterRequest (disabled [0, 0, 0, 0x01, 0x65, 0, 0, 0, 0x01, 0xFC, 0, 0]) 0x110000).map
        (fun t => (t.host.result, t.env.trace.getLast?, t.ctl.saved)) =
      some (some (.err (.selfTestFailed 0xFC)), some (.writeData 0x65), 0x65) := by decide +kernel

/-- `keyboard_interface_test` answered 0x05 (V3.5). -/
theorem test_keyboardInterfaceTest_unknown :
    (afterRequest (disabled [0, 0, 0, 0x01, 0x05]) 0x120000).map (fun t => t.host.result) =
      some (some (.err (.interfaceError .keyboard 0x05 (.unknownValue 0x05)))) := by decide +kernel

/-- `aux_interface_test` answered 0x02 (V3.5). -/
theorem test_auxInterfaceTest_clockLineHigh :
    (afterRequest (disabled [0, 0, 0, 0x01, 0x02]) 0x130000).map (fun t => t.host.result) =
      some (some (.err (.interfaceError .auxiliary 0x02 .clockLineHigh))) := by decide +kernel

/-- `ram_read` of index 0x1F sends 0x3F (V3.4). -/
theorem test_ramRead_last_index :
    shown (afterRequest (disabled [0, 0, 0, 0x01, 0x99]) 0x143F00) =
      some ([.readStatus 0, .readStatus 0, .writeCommand 0x3F, .readStatus 0, .readStatus 0x01,
        .readData 0x99], some (.ok (.byte 0x99))) := by decide +kernel

/-- `ram_write` of 0x7E to index 1 (V3.4). -/
theorem test_ramWrite_trace :
    shown (afterRequest (disabled [0, 0]) 0x15017E) =
      some ([.readStatus 0, .writeCommand 0x61, .readStatus 0, .writeData 0x7E],
        some (.ok .unit)) := by decide

/-- `ram_read` of index 0 and `enable_devices` of no device (V3.4, V3.6). -/
theorem test_badOperands :
    shown (afterRequest (disabled []) 0x142000) = some ([], some (.err .badOperand)) ∧
    shown (afterRequest (disabled []) 0x170000) = some ([], some (.err .badOperand)) := by decide

/-- `cpu_reset` (V3.7). -/
theorem test_cpuReset_trace :
    shown (afterRequest (disabled [0, 0]) 0x160000) =
      some ([.readStatus 0, .writeCommand 0xFE, .readStatus 0], some (.ok .unit)) := by decide

/-- `enable_devices Keyboard` with the test passed (S5). -/
theorem test_enableDevices_keyboard :
    shown (afterRequest (disabled [0, 0, 0, 0x01, 0x00, 0, 0]) 0x170100) =
      some ([.readStatus 0, .readStatus 0, .writeCommand 0xAB, .readStatus 0, .readStatus 0x01,
        .readData 0x00, .readStatus 0, .writeCommand 0xAE, .readStatus 0],
        some (.ok .unit)) := by decide +kernel

/-- `enable_devices Keyboard` with the test answered 2 (S6). -/
theorem test_enableDevices_failing :
    (afterRequest (disabled [0, 0, 0, 0x01, 0x02]) 0x170100).map
        (fun t => (t.host.result, t.ctl.state, t.env.trace.length)) =
      some (some (.err (.interfaceError .keyboard 0x02 .clockLineHigh)), .devicesDisabled, 6) := by
  decide +kernel

/-- `enable_devices_and_interrupts Auxiliary` with command byte 0x44 writes 0x46 (V3.6). -/
theorem test_enableDevicesAndInterrupts_auxiliary :
    (afterRequest (disabled [0, 0, 0, 0x01, 0x00, 0, 0, 0, 0, 0, 0x01, 0x44, 0, 0]) 0x180200).map
        (fun t => (t.ctl.sel, t.ctl.irq, t.env.trace.getLast?)) =
      some (0b10, true, some (.writeData 0x46)) := by decide +kernel

/-- `send_to_keyboard` and `send_to_auxiliary_device` with the keyboard enabled only (V3.9). -/
theorem test_send_gates :
    shown (afterRequest (enabled 0b01 [0]) 0x20F400) =
      some ([.readStatus 0, .writeData 0xF4], some (.ok .unit)) ∧
    shown (afterRequest (enabled 0b01 []) 0x21F400) =
      some ([], some (.err .deviceNotEnabled)) := by decide

/-- `send_to_auxiliary_device` (V3.9). -/
theorem test_sendToAuxiliaryDevice_trace :
    shown (afterRequest (enabled 0b10 [0, 0]) 0x21F400) =
      some ([.readStatus 0, .writeCommand 0xD4, .readStatus 0, .writeData 0xF4],
        some (.ok .unit)) := by decide

/-- `poll_data` with an auxiliary byte and with none (V3.8). -/
theorem test_pollData :
    shown (afterRequest (enabled 0b01 [0x21, 0x08]) 0x220000) =
      some ([.readStatus 0x21, .readData 0x08], some (.ok (.data .auxiliaryDevice 0x08))) ∧
    shown (afterRequest (enabled 0b01 [0x02]) 0x220000) =
      some ([.readStatus 0x02], some (.ok .noData)) := by decide

/-- `disable_devices` without interrupts (V3.10). -/
theorem test_disableDevices_light :
    (afterRequest (enabled 0b11 [0, 0, 0, 0]) 0x230000).map
        (fun t => (t.env.trace, t.ctl.state, t.ctl.sel)) =
      some ([.readStatus 0, .writeCommand 0xAD, .readStatus 0, .readStatus 0, .writeCommand 0xA7,
        .readStatus 0], .devicesDisabled, 0) := by decide

/-- `disable_devices` with interrupts, command byte 0x47: sixteen transactions, the last
`W(DATA,0x44)` (V3.10). -/
theorem test_disableDevices_full :
    (afterRequest (inMode .enabledDevices 0b11 true [0, 0, 0, 0, 0, 0, 0, 0x01, 0x47, 0, 0])
        0x230000).map (fun t => (t.env.trace.length, t.env.trace.getLast?, t.ctl.irq)) =
      some (16, some (.writeData 0x44), false) := by decide +kernel

/-- Gating after reset and an unknown operation (V3.1). -/
theorem test_wrongState_and_unknownOperation :
    shown (afterRequest State.reset 0x110000) = some ([], some (.err .wrongState)) ∧
    shown (afterRequest State.reset 0x370000) = some ([], some (.err .wrongState)) ∧
    shown (afterRequest State.reset 0x390000) = some ([], some (.err .unknownOperation)) := by
  decide

/-! The port handshakes (95 V2), each a controller command by itself. -/

/-- `CtlCmd(0xA7)` (V2.2). -/
theorem test_plain_command :
    (nextState (exec .ctlDisableAux (disabled [0x02, 0x00, 0x00]))).map (fun t => t.env.trace) =
      some [.readStatus 0x02, .readStatus 0x00, .writeCommand 0xA7, .readStatus 0x00] := by decide

/-- `CtlCmdData(0xD4, 0xE8)` (V2.3): the byte reaches the auxiliary device. -/
theorem test_parameter_command :
    (nextState (exec (.ctlWriteToAux 0xE8) (disabled [0x00, 0x02, 0x02, 0x00]))).map
        (fun t => (t.env.trace, t.env.auxSent)) =
      some ([.readStatus 0x00, .writeCommand 0xD4, .readStatus 0x02, .readStatus 0x02,
        .readStatus 0x00, .writeData 0xE8], [0xE8]) := by decide

/-- `CtlCmdResp(0x20)` with a stale auxiliary byte and a busy controller (V2.6). -/
theorem test_response_command :
    (nextState (exec .ctlReadCommandByte
        (disabled [0x21, 0x08, 0x02, 0x00, 0x02, 0x00, 0x00, 0x01, 0x47]))).map
        (fun t => (t.env.trace, t.ctl.resp)) =
      some ([.readStatus 0x21, .readData 0x08, .readStatus 0x02, .readStatus 0x00,
        .writeCommand 0x20, .readStatus 0x02, .readStatus 0x00, .readStatus 0x00,
        .readStatus 0x01, .readData 0x47], 0x47) := by decide +kernel

/-- `WaitCtlData` is not ended by an auxiliary byte (V2.5), and waits when no answer is listed. -/
theorem test_response_wait :
    (nextState (exec .ctlSelfTest (disabled [0, 0, 0, 0x00, 0x21, 0x20]))).map
        (fun t => (t.env.answers, t.ctl.upc)) =
      some ([], .running (some .ctlSelfTest) [.pollResponse 0xAA, .takeResponse 0xAA]) := by
  decide +kernel

/-! The queue and the session (95 S3, S7, S8, V4, V5). -/

/-- A RESEND byte at `WaitAck1` and `WaitAck2` of a payload command (S3). -/
theorem test_resend_writes_again :
    queueShown (afterByte (withQueue (enabled 0b01 [0]) []
        (some (record .sendCommandAndData 0xED 0x02 .waitAck1))) 0xFE) =
      some ([.readStatus 0, .writeData 0xED],
        some (record .sendCommandAndData 0xED 0x02 .waitAck1),
        some (.ok .noEvent)) ∧
    queueShown (afterByte (withQueue (enabled 0b01 [0]) []
        (some (record .sendCommandAndData 0xED 0x02 .waitAck2))) 0xFE) =
      some ([.readStatus 0, .writeData 0x02],
        some (record .sendCommandAndData 0xED 0x02 .waitAck2),
        some (.ok .noEvent)) := by decide

/-- ACK chains to the next queued command (V4.7). -/
theorem test_ack_starts_the_next :
    queueShown (afterByte (withQueue (enabled 0b01 [0]) [record .echo 0xEE 0 .waitEcho]
        (some (record .ackResponse 0xF4 0 .waitAck))) 0xFA) =
      some ([.readStatus 0, .writeData 0xEE], some (record .echo 0xEE 0 .waitEcho),
        some (.ok .noEvent)) := by decide

/-- `ECHO_REPLY` finishes an echo; an unexpected plain byte leaves the command and makes no transaction
(V4.2, V4.1). What the decoder makes of it is open. -/
theorem test_echo_and_unexpected :
    queueShown (afterByte (withQueue (enabled 0b01 []) []
        (some (record .echo 0xEE 0 .waitEcho))) 0xEE) =
      some ([], none, some (.ok (.event .echoReceived))) ∧
    (afterByte (withQueue (enabled 0b01 []) []
        (some (record .ackResponse 0xF5 0 .waitAck))) 0x1C).map
        (fun t => (t.env.trace, t.q.inflight)) =
      some ([], some (record .ackResponse 0xF5 0 .waitAck)) := ⟨by decide, rfl⟩

/-- A RESEND byte on an idle queue is swallowed (44_keyboard_session.md R234); the ACK byte that finishes
0xF5 makes the marker `Disabled` (R241). -/
theorem test_bare_bytes_reach_the_session :
    queueShown (afterByte (enabled 0b01 []) 0xFE) = some ([], none, some (.ok .noEvent)) ∧
    (afterByte (withQueue (enabled 0b01 []) []
        (some (record .ackResponse 0xF5 0 .waitAck))) 0xFA).map (fun t => t.ks.marker) =
      some .disabled := by decide

/-- While disabled the queue does not advance (70_reset_and_hazards.md R313). -/
theorem test_bytes_while_disabled :
    queueShown (afterByte (withQueue (disabled [0]) [record .echo 0xEE 0 .waitEcho]
        (some (record .ackResponse 0xF5 0 .waitAck))) 0xFA) =
      some ([], some (record .ackResponse 0xF5 0 .waitAck), some (.err .wrongState)) ∧
    queueShown (afterByte (withQueue (enabled 0b10 []) []
        (some (record .ackResponse 0xF5 0 .waitAck))) 0x1C) =
      some ([], some (record .ackResponse 0xF5 0 .waitAck),
        some (.err .deviceNotEnabled)) := by decide

/-- The ID bytes of a `kbd_read_id`: 0xAB is taken as byte 1, 0x83 finishes with the event (S7). -/
theorem test_kbdReceive_id_bytes :
    queueShown (afterRequest (withQueue (enabled 0b01 []) []
        (some (record .ackResponseWithReturnTwoBytes 0xF2 0 .waitByte1))) 0x30AB00) =
      some ([], some { record .ackResponseWithReturnTwoBytes 0xF2 0 .waitByte2 with r1 := 0xAB },
        some (.ok .noEvent)) ∧
    queueShown (afterRequest (withQueue (enabled 0b01 []) []
        (some { record .ackResponseWithReturnTwoBytes 0xF2 0 .waitByte2 with r1 := 0xAB }))
        0x308300) =
      some ([], none, some (.ok (.event (.id 0xAB 0x83)))) := by decide

/-- BAT completion with a command in flight (S8): the queue is unchanged. -/
theorem test_kbdReceive_batCompleted :
    (afterRequest { withQueue (enabled 0b01 []) [record .ackResponse 0xF4 0 .waitAck]
        (some (record .ackResponseWithReturnTwoBytes 0xF2 0 .waitByte1)) with
          ks := { marker := .disabled } } 0x30AA00).map
        (fun t => (t.q.fifo.length, t.q.inflight, t.ks.marker, t.decoder.table, t.host.result)) =
      some (1, some (record .ackResponseWithReturnTwoBytes 0xF2 0 .waitByte1), .enabled, .set2,
        some (.ok (.event .batCompleted))) := by decide

/-- The finished 0xF5 makes the marker `Disabled` (V5.7). -/
theorem test_marker_disabled :
    (afterRequest (withQueue (enabled 0b01 []) []
        (some (record .ackResponse 0xF5 0 .waitAck))) 0x30FA00).map (fun t => t.ks.marker) =
      some .disabled := by decide

/-- The error sentinels (V5.1). -/
theorem test_kbdReceive_error_sentinels :
    shown (afterRequest (enabled 0b01 []) 0x300000) = some ([], some (.err .keyDetectionOverrun)) ∧
    shown (afterRequest (enabled 0b01 []) 0x30FC00) = some ([], some (.err .batFailed)) := by decide

/-- The three sentinels as bytes by themselves (30_encoding.md R102). -/
theorem test_sentinel_bytes :
    shown (afterByte (enabled 0b01 []) 0x00) = some ([], some (.err .keyDetectionOverrun)) ∧
    shown (afterByte (enabled 0b01 []) 0xFC) = some ([], some (.err .batFailed)) ∧
    shown (afterByte (enabled 0b01 []) 0xAA) = some ([], some (.ok (.event .batCompleted))) := by decide

/-- Issuing on an idle queue: `kbd_read_id` and `kbd_set_typematic 0x7F` (S7, V5.4). -/
theorem test_issue_starts :
    shown (afterRequest (enabled 0b01 [0x14]) 0x370000) =
      some ([.readStatus 0x14, .writeData 0xF2], some (.ok .unit)) ∧
    (afterRequest (enabled 0b01 [0x00]) 0x357F00).map
        (fun t => t.q.inflight.map fun c => (c.variant, c.cmd, c.data, c.cur)) =
      some (some (.sendCommandAndData, 0xF3, 0x7F, .waitAck1)) := by decide

/-- The other issued commands write their command byte (44_keyboard_session.md R240). -/
theorem test_issue_bytes :
    (afterRequest (enabled 0b01 [0]) 0x310000).map (fun t => t.env.kbdSent) = some [0xF5] ∧
    (afterRequest (enabled 0b01 [0]) 0x320000).map (fun t => t.env.kbdSent) = some [0xF6] ∧
    (afterRequest (enabled 0b01 [0]) 0x330000).map (fun t => t.env.kbdSent) = some [0xF4] ∧
    (afterRequest (enabled 0b01 [0]) 0x340200).map (fun t => t.env.kbdSent) = some [0xED] ∧
    (afterRequest (enabled 0b01 [0]) 0x380000).map (fun t => t.env.kbdSent) = some [0xEE] := by
  decide

/-- `kbd_select_scancode_set 3` on an idle queue (V5.5). -/
theorem test_selectScancodeSet_pair :
    (afterRequest (enabled 0b01 [0]) 0x360300).map
        (fun t => (t.env.trace, t.q.inflight.map fun c => (c.variant, c.data),
          t.q.fifo.map fun c => (c.variant, c.data))) =
      some ([.readStatus 0, .writeData 0xF0], some (.sendCommandAndData, 0x03),
        [(.sendCommandAndDataAndReceiveResponse, 0x00)]) := by decide

/-- Its capacity check: in flight one command, three queued (V5.6), and the operand checks (V5.4). -/
theorem test_selectScancodeSet_refused :
    shown (afterRequest (withQueue (enabled 0b01 [])
        (List.replicate 3 (record .ackResponse 0xF4 0 .waitAck))
        (some (record .ackResponse 0xF4 0 .waitAck))) 0x360300) =
      some ([], some (.err .queueFull)) ∧
    shown (afterRequest (enabled 0b01 []) 0x360000) = some ([], some (.err .badOperand)) ∧
    shown (afterRequest (enabled 0b10 []) 0x358000) = some ([], some (.err .deviceNotEnabled)) := by
  decide

/-- A device command on an idle queue starts; `ECHO` has the echo variant (30_encoding.md R100). -/
theorem test_device_commands_start :
    (nextState (exec .devEcho (enabled 0b01 [0]))).map
        (fun t => (t.env.kbdSent, t.q.inflight.map fun c => (c.variant, c.cur))) =
      some ([0xEE], some (.echo, .waitEcho)) ∧
    (nextState (exec (.devSelectScancodeSet 0) (enabled 0b01 [0]))).map
        (fun t => t.q.inflight.map fun c => (c.variant, c.data)) =
      some (some (.sendCommandAndDataAndReceiveResponse, 0x00)) := by decide

/-- The other device commands write their bytes (R100). -/
theorem test_device_command_bytes :
    (nextState (exec (.devSetIndicators 2) (enabled 0b01 [0]))).map (fun t => t.env.kbdSent) =
      some [0xED] ∧
    (nextState (exec .devReadId (enabled 0b01 [0]))).map (fun t => t.env.kbdSent) = some [0xF2] ∧
    (nextState (exec (.devSetTypematic 0x20) (enabled 0b01 [0]))).map (fun t => t.env.kbdSent) =
      some [0xF3] ∧
    (nextState (exec .devEnable (enabled 0b01 [0]))).map (fun t => t.env.kbdSent) = some [0xF4] ∧
    (nextState (exec .devDisable (enabled 0b01 [0]))).map (fun t => t.env.kbdSent) = some [0xF5] ∧
    (nextState (exec .devSetDefaults (enabled 0b01 [0]))).map (fun t => t.env.kbdSent) =
      some [0xF6] := by decide

/-- The gate stands before a device command too (43_command_queue.md R212). -/
theorem test_device_command_gate :
    shown (nextState (exec .devEnable (disabled [0]))) = some ([], some (.err .wrongState)) := by decide

/-- At the grain of 00_scope.md R6 a step stops between the clear status read and the write it guards, and
a reset that falls there leaves the command unwritten (70_reset_and_hazards.md R302). -/
theorem test_reset_between_read_and_write :
    (afterRequest { State.reset with env := { State.reset.env with answers := [0x00] } }
        0x010000).map (fun t => (t.env.trace, (stepsLeft t).head?)) =
      some ([.readStatus 0x00], some (.writeCommand 0xAD)) ∧
    ((afterRequest { State.reset with env := { State.reset.env with answers := [0x00] } }
        0x010000).bind fun t =>
          nextState (step { t with host := { t.host with resetLine := true } })).map
        (fun t => (t.env.trace, t.ctl.upc)) =
      some ([.readStatus 0x00], .idle) := by decide

/-- A row of the opcode table placed for the next step runs as the first instruction after reset. -/
theorem test_withFetchWord_runs :
    shown (nextState (step (State.reset.withFetchWord 24 0x390000))) =
      some ([], some (.err .unknownOperation)) ∧
    shown (nextState (step (State.reset.withFetchWord 8 0x02))) =
      some ([.readData 0x02],
        some (.err (.interfaceError .keyboard 0x02 .clockLineHigh))) := by decide

/-! Witnesses: the hypotheses of each statement can be met. First the exchanges, short and with a busy
status byte or a stale byte where there can be one. -/

theorem inputWait_busy : InputWait [0x02, 0x00] :=
  ⟨[0x02], 0x00, rfl, by decide, by decide⟩

theorem inputWait_idle : InputWait [0x00] := ⟨[], 0x00, rfl, by decide, by decide⟩

theorem responseWait_busy : ResponseWait [0x20, 0x01] :=
  ⟨[0x20], 0x01, rfl, by decide, by decide⟩

theorem staleCheck_byte : StaleCheck [0x21, 0x08] [.readStatus 0x21, .readData 0x08] :=
  .inr ⟨0x21, 0x08, rfl, by decide, rfl⟩

/-- A plain exchange. -/
def plainX (c : Byte) : Exchange :=
  { answers := [0x02, 0x00] ++ [0x00]
    trace := statusReads [0x02, 0x00] ++ [.writeCommand c] ++ statusReads [0x00] }

theorem plainX_ok (c : Byte) : PlainExchange c (plainX c) :=
  ⟨_, _, inputWait_busy, inputWait_idle, rfl⟩

/-- A parameter exchange. -/
def parameterX (c d : Byte) : Exchange :=
  { answers := [0x02, 0x00] ++ [0x00]
    trace := statusReads [0x02, 0x00] ++ [.writeCommand c] ++ statusReads [0x00] ++
      [.writeData d] }

theorem parameterX_ok (c d : Byte) : ParameterExchange c d (parameterX c d) :=
  ⟨_, _, inputWait_busy, inputWait_idle, rfl⟩

/-- A response exchange, with a stale auxiliary byte first. -/
def responseX (c r : Byte) : Exchange :=
  { answers := [0x21, 0x08] ++ [0x00] ++ [0x02, 0x00] ++ [0x20, 0x01] ++ [r]
    trace := [.readStatus 0x21, .readData 0x08] ++ statusReads [0x00] ++ [.writeCommand c] ++
      statusReads [0x02, 0x00] ++ statusReads [0x20, 0x01] ++ [.readData r] }

theorem responseX_ok (c r : Byte) : ResponseExchange c r (responseX c r) :=
  ⟨_, _, _, _, _, staleCheck_byte, inputWait_idle, inputWait_busy, responseWait_busy, rfl⟩

/-- An initialization exchange. -/
def initX (cb : Byte) : Exchange :=
  (((plainX 0xAD).seq (plainX 0xA7)).seq (responseX 0x20 cb)).seq (parameterX 0x60 (cb &&& 0xFC))

theorem initX_ok (cb : Byte) : InitExchange cb (initX cb) :=
  ⟨_, _, _, _, plainX_ok _, plainX_ok _, responseX_ok _ _, parameterX_ok _ _, rfl⟩

/-- A read-modify-write of the command byte. -/
def updateX (old new : Byte) : Exchange := (responseX 0x20 old).seq (parameterX 0x60 new)

theorem updateX_ok (old new : Byte) : UpdateExchange old new (updateX old new) :=
  ⟨_, _, responseX_ok _ _, parameterX_ok _ _, rfl⟩

/-- One exchange where a condition holds, none where it does not. -/
def onlyX (cond : Bool) (x : Exchange) : Exchange := if cond then x else Exchange.none

theorem onlyX_ok {cond : Bool} {p : Exchange → Prop} {x : Exchange} (h : p x) :
    Only cond p (onlyX cond x) := by
  cases cond
  · rfl
  · exact h

/-- An enabling exchange. -/
def enableX (d : EnableDevice) (irq : Bool) (cb : Byte) : Exchange :=
  ((((onlyX (hasKeyboard d) (responseX 0xAB 0x00)).seq
    (onlyX (hasAuxiliary d) (responseX 0xA9 0x00))).seq
    (onlyX (hasKeyboard d) (plainX 0xAE))).seq
    (onlyX (hasAuxiliary d) (plainX 0xA8))).seq
    (onlyX irq (updateX cb (cb ||| interruptBits d)))

theorem enableX_ok (d : EnableDevice) (irq : Bool) (cb : Byte) :
    EnableExchange d irq cb (enableX d irq cb) :=
  ⟨_, _, _, _, _, onlyX_ok (responseX_ok _ _), onlyX_ok (responseX_ok _ _), onlyX_ok (plainX_ok _),
    onlyX_ok (plainX_ok _), onlyX_ok (updateX_ok _ _), rfl⟩

/-- A state in the middle of a wait. -/
def waiting : State :=
  { State.reset with
    ctl := { State.reset.ctl with upc := .running (some .startInit) initSequence } }

theorem witness_ResetValues :
    ({ waiting with host := { waiting.host with resetLine := true } } : State).host.resetLine =
      true := rfl

theorem witness_StepRunsDecoded :
    ((presenting State.reset (.request 0x000000)).host.resetLine = false ∧
      Idle (presenting State.reset (.request 0x000000)) ∧
      decode State.reset.cfg (.request 0x000000) = .ok .readStatus) ∧
    (State.reset.host.resetLine = false ∧ Idle State.reset ∧ State.reset.host.presented = []) ∧
    (let s := State.reset.withFetchWord 8 0x02
     s.host.resetLine = false ∧
      s.ctl.upc = .running (some .keyboardInterfaceTest)
        (.takeResponse 0xAB :: [.judgeTest .keyboard, .ret (.ok .unit)]) ∧
      s.env.answers = 0x02 :: [] ∧
      decode s.cfg (.controllerResponse 0xAB 0x02) = .ok .respClockLineHigh) :=
  ⟨⟨rfl, rfl, rfl⟩, ⟨rfl, rfl, rfl⟩, rfl, rfl, rfl, rfl⟩

/-- The code kept free, 0x39, the ones beside the table's ends, and the last one. -/
theorem witness_UnknownOperationAnswered :
    (presenting State.reset (.request (requestWord 0x39 0x00 0x00))).host.resetLine = false ∧
    Idle (presenting State.reset (.request (requestWord 0x39 0x00 0x00))) ∧
    ∀ op : Byte, op ∈ [(0x39 : Byte), 0x02, 0x0F, 0x19, 0x1F, 0x24, 0x2F, 0xFF] →
      op.toNat ∉ [0x00, 0x01, 0x10, 0x11, 0x12, 0x13, 0x14, 0x15, 0x16, 0x17, 0x18, 0x20, 0x21, 0x22,
        0x23, 0x30, 0x31, 0x32, 0x33, 0x34, 0x35, 0x36, 0x37, 0x38] :=
  ⟨rfl, rfl, by decide⟩

theorem witness_DecodeEncodeAgree :
    (Instr.ctlWriteRam 0x1F 0xFF).wellFormed Config.documented = true := rfl

theorem witness_DecodedIsWellFormed :
    decode Config.documented (.controllerCommand 0xFE 0x00) = .ok (.ctlPulseOutput 0b1110) ∧
    decode Config.documented (.controllerCommand 0xFF 0x00) = .ok (.ctlPulseOutput 0b1111) :=
  ⟨rfl, rfl⟩

theorem witness_StatusDecoder :
    (0x20 : Byte).getLsbD 5 = true ∧
    ((0x01 : Byte).getLsbD 5 = false ∧ (0x01 : Byte).getLsbD 0 = true) ∧
    ((0x00 : Byte).getLsbD 5 = false ∧ (0x00 : Byte).getLsbD 0 = false) ∧
    ∀ i, i ≠ 3 → (0x09 : Byte).getLsbD i = (0x01 : Byte).getLsbD i := by
  refine ⟨rfl, ⟨rfl, rfl⟩, ⟨rfl, rfl⟩, fun i hi => ?_⟩
  by_cases h : i < 8
  · have : ∀ k : Fin 8, k.val ≠ 3 → (0x09 : Byte).getLsbD k = (0x01 : Byte).getLsbD k := by decide
    exact this ⟨i, h⟩ hi
  · rw [BitVec.getLsbD_of_ge _ _ (by omega), BitVec.getLsbD_of_ge _ _ (by omega)]

theorem witness_InterfaceTestMapTable : 0x05 ≤ (0x05 : Byte).toNat ∧ 0x05 ≤ (0xFF : Byte).toNat := by
  decide

theorem witness_StatusBitsThatSteer : SteerAlike 0x01 0xDD ∧ SteerAlike 0x22 0xFE :=
  ⟨⟨rfl, rfl, rfl⟩, rfl, rfl, rfl⟩

theorem witness_ReadStatusResult :
    Idle (inMode .initController 0 false [0xE1]) ∧
    (inMode .initController 0 false [0xE1]).env.answers = 0xE1 :: [] := ⟨rfl, rfl⟩

theorem witness_StartInitResult :
    let s := inMode .initController 0 false ((initX 0x65).answers ++ [0x00])
    Idle s ∧ s.ctl.state = .initController ∧ InitExchange 0x65 (initX 0x65) ∧
      s.env.answers = (initX 0x65).answers ++ [0x00] := ⟨rfl, rfl, initX_ok _, rfl⟩

theorem witness_SetTranslationResult :
    let s := disabled ((updateX 0x65 0x25).answers ++ [])
    Idle s ∧ s.ctl.state = .devicesDisabled ∧
      (∀ k, k < 8 → (0x25 : Byte).getLsbD k = if k = 6 then false else (0x65 : Byte).getLsbD k) ∧
      UpdateExchange 0x65 0x25 (updateX 0x65 0x25) ∧
      s.env.answers = (updateX 0x65 0x25).answers ++ [] :=
  ⟨rfl, rfl, by decide, updateX_ok _ _, rfl⟩

theorem witness_SelfTestResult :
    let x := ((responseX 0x20 0x65).seq (responseX 0xAA 0xFC)).seq (parameterX 0x60 0x65)
    Idle (disabled (x.answers ++ [])) ∧
      (disabled (x.answers ++ [])).ctl.state = .devicesDisabled ∧
      ResponseExchange 0x20 0x65 (responseX 0x20 0x65) ∧
      ResponseExchange 0xAA 0xFC (responseX 0xAA 0xFC) ∧
      ParameterExchange 0x60 0x65 (parameterX 0x60 0x65) :=
  ⟨rfl, rfl, responseX_ok _ _, responseX_ok _ _, parameterX_ok _ _⟩

theorem witness_InterfaceTestResults (c : Byte) (r : Byte) :
    let s := disabled ((responseX c r).answers ++ [])
    Idle s ∧ s.ctl.state = .devicesDisabled ∧
      s.env.answers = (responseX c r).answers ++ [] ∧ ResponseExchange c r (responseX c r) :=
  ⟨rfl, rfl, rfl, responseX_ok _ _⟩

theorem witness_RamReadWriteResults :
    (Idle (disabled ((responseX 0x3F 0x99).answers ++ [])) ∧ (0x1F : BitVec 5) ≠ 0 ∧
      ResponseExchange (BitVec.ofNat 8 (0x20 + (0x1F : BitVec 5).toNat)) 0x99
        (responseX 0x3F 0x99)) ∧
    (Idle (disabled ((parameterX 0x61 0x7E).answers ++ [])) ∧ (0x01 : BitVec 5) ≠ 0 ∧
      ParameterExchange (BitVec.ofNat 8 (0x60 + (0x01 : BitVec 5).toNat)) 0x7E
        (parameterX 0x61 0x7E)) :=
  ⟨⟨rfl, by decide, responseX_ok _ _⟩, rfl, by decide, parameterX_ok _ _⟩

theorem witness_CpuResetResult :
    let s := disabled ((plainX 0xFE).answers ++ [])
    Idle s ∧ s.ctl.state = .devicesDisabled ∧ PlainExchange 0xFE (plainX 0xFE) ∧
      s.env.answers = (plainX 0xFE).answers ++ [] := ⟨rfl, rfl, plainX_ok _, rfl⟩

theorem witness_EnableDevicesResult (d : EnableDevice) :
    let s := disabled ((enableX d false 0x00).answers ++ [])
    Idle s ∧ s.ctl.state = .devicesDisabled ∧ EnableExchange d false 0x00 (enableX d false 0x00) ∧
      s.env.answers = (enableX d false 0x00).answers ++ [] := ⟨rfl, rfl, enableX_ok _ _ _, rfl⟩

theorem witness_EnableDevicesAndInterruptsResult :
    let s := disabled ((enableX .auxiliary true 0x44).answers ++ [])
    Idle s ∧ s.ctl.state = .devicesDisabled ∧
      EnableExchange .auxiliary true 0x44 (enableX .auxiliary true 0x44) ∧
      s.env.answers = (enableX .auxiliary true 0x44).answers ++ [] ∧
      ∀ k, k < 8 → (0x46 : Byte).getLsbD k =
        ((0x44 : Byte).getLsbD k || (k == 0 && hasKeyboard .auxiliary) ||
          (k == 1 && hasAuxiliary .auxiliary)) :=
  ⟨rfl, rfl, enableX_ok _ _ _, rfl, by decide⟩

/-- The keyboard's test failing, and the auxiliary device's after the keyboard's has passed. -/
theorem witness_EnableDevicesFailure :
    (0x01 : Byte) ≠ 0x00 ∧
    FailedTestExchange .both .keyboard 0x01 (responseX 0xAB 0x01) ∧
    FailedTestExchange .both .auxiliary 0x04
      ((responseX 0xAB 0x00).seq (responseX 0xA9 0x04)) ∧
    FailedTestExchange .auxiliary .auxiliary 0xFF (Exchange.none.seq (responseX 0xA9 0xFF)) ∧
    Idle (disabled (responseX 0xAB 0x01).answers) ∧
    (disabled (responseX 0xAB 0x01).answers).ctl.state = .devicesDisabled :=
  ⟨by decide, ⟨rfl, responseX_ok _ _⟩, ⟨rfl, _, _, responseX_ok _ _, responseX_ok _ _, rfl⟩,
    ⟨rfl, _, _, rfl, responseX_ok _ _, rfl⟩, rfl, rfl⟩

theorem witness_SendResults :
    (let s := enabled 0b01 ([0x02, 0x00] ++ [])
     Idle s ∧ s.ctl.state = .enabledDevices ∧ s.ctl.sel.getLsbD 0 = true ∧
      InputWait [0x02, 0x00]) ∧
    (let s := enabled 0b10 ((parameterX 0xD4 0xF4).answers ++ [])
     Idle s ∧ s.ctl.state = .enabledDevices ∧ s.ctl.sel.getLsbD 1 = true ∧
      ParameterExchange 0xD4 0xF4 (parameterX 0xD4 0xF4)) :=
  ⟨⟨rfl, rfl, rfl, inputWait_busy⟩, rfl, rfl, rfl, parameterX_ok _ _⟩

theorem witness_PollDataResult :
    Idle (enabled 0b01 [0x21, 0x08]) ∧ (enabled 0b01 [0x21, 0x08]).ctl.state = .enabledDevices ∧
    ((0xC2 : Byte).getLsbD 5 = false ∧ (0xC2 : Byte).getLsbD 0 = false) ∧
    ((0xC1 : Byte).getLsbD 5 = false ∧ (0xC1 : Byte).getLsbD 0 = true) ∧
    (0x20 : Byte).getLsbD 5 = true := ⟨rfl, rfl, ⟨rfl, rfl⟩, ⟨rfl, rfl⟩, rfl⟩

theorem witness_DisableDevicesResult :
    (let s := enabled 0b11 (((plainX 0xAD).seq (plainX 0xA7)).answers ++ [])
     Idle s ∧ s.ctl.state = .enabledDevices ∧ s.ctl.irq = false ∧
      PlainExchange 0xAD (plainX 0xAD) ∧ PlainExchange 0xA7 (plainX 0xA7)) ∧
    (let s := inMode .enabledDevices 0b11 true ((initX 0x47).answers ++ [])
     Idle s ∧ s.ctl.state = .enabledDevices ∧ s.ctl.irq = true ∧ InitExchange 0x47 (initX 0x47)) :=
  ⟨⟨rfl, rfl, rfl, plainX_ok _, plainX_ok _⟩, rfl, rfl, rfl, initX_ok _⟩

theorem witness_WrongStateRefused :
    legalStates .selfTest = some [.devicesDisabled] ∧ Idle State.reset ∧
    State.reset.ctl.state ∉ [ProtocolState.devicesDisabled] := ⟨rfl, rfl, by decide⟩

theorem witness_DeviceNotEnabledRefused :
    (deviceBit (.kbdSetTypematic 0x80) = some 0 ∧ Idle (enabled 0b10 []) ∧
      (enabled 0b10 []).ctl.state = .enabledDevices ∧
      (enabled 0b10 []).ctl.sel.getLsbD 0 = false) ∧
    (deviceBit (.sendToAuxiliaryDevice 0xF4) = some 1 ∧
      (enabled 0b01 []).ctl.sel.getLsbD 1 = false) := by decide

/-- One illegal operand of each of the six operations, at the edge of its range. -/
theorem witness_BadOperandRefused :
    (operandIllegal (.ramRead 0) = true ∧ operandIllegal (.ramWrite 0 0xAA) = true ∧
      operandIllegal (.enableDevices 0) = true ∧
      operandIllegal (.enableDevicesAndInterrupts 0) = true ∧ Idle (disabled [])) ∧
    Exposed (disabled []) (.ramRead 0) ∧
    (operandIllegal (.kbdSetTypematic 0x80) = true ∧
      operandIllegal (.kbdSelectScancodeSet 0x00) = true ∧
      operandIllegal (.kbdSelectScancodeSet 0x04) = true ∧ Idle (enabled 0b01 [])) ∧
    Exposed (enabled 0b01 []) (.kbdSetTypematic 0x80) := by
  refine ⟨by decide, ⟨fun l h => ?_, fun k h => ?_⟩, by decide, fun l h => ?_, fun k h => ?_⟩ <;>
    cases h <;> decide

theorem witness_BusyNotAccepted :
    waiting.ctl.upc = .running (some .startInit) initSequence ∧
    responseByte .readStatus = none := ⟨rfl, rfl⟩

theorem witness_WaitWithoutEnd :
    let s := inMode .initController 0 false [0x02, 0xFF]
    Idle s ∧ s.ctl.state = .initController ∧ s.env.answers = [0x02, 0xFF] ∧
      ∀ b ∈ [(0x02 : Byte), 0xFF], b.getLsbD 1 = true := ⟨rfl, rfl, rfl, by decide⟩

theorem witness_OnlyCommandBytesRefused :
    step (presenting State.reset (.controllerCommand 0xAC 0x00)) =
      .refused (.notAControllerCommand 0xAC) ∧
    step (presenting State.reset (.controllerCommand 0xFF 0x00)) =
      .refused (.pulsePatternNeverEmitted 0b1111) ∧
    step (presenting State.reset (.deviceCommand 0xEF 0x00)) =
      .refused (.notADeviceCommand 0xEF) := ⟨rfl, rfl, rfl⟩

theorem witness_IssueStartsOnIdleQueue :
    let s := enabled 0b01 ([0x02, 0x00] ++ [])
    issuedCommand (.kbdSetTypematic 0x7F) = some (.sendCommandAndData, 0xF3, some 0x7F) ∧
      operandIllegal (.kbdSetTypematic 0x7F) = false ∧ Idle s ∧ SessionOpen s ∧ s.cfg.wf ∧
      s.q.inflight = none ∧ s.q.fifo = [] ∧ InputWait [0x02, 0x00] ∧
      s.env.answers = [0x02, 0x00] ++ [] :=
  ⟨rfl, rfl, rfl, ⟨rfl, rfl⟩, by decide, rfl, rfl, inputWait_busy, rfl⟩

/-- The command the queue witnesses hold. -/
def enableRecord : Command := record .ackResponse 0xF4 0 .waitAck

theorem witness_IssueQueuesBehind :
    let s := withQueue (enabled 0b01 []) (List.replicate 3 enableRecord) (some enableRecord)
    issuedCommand .kbdEcho = some (.echo, 0xEE, none) ∧ operandIllegal .kbdEcho = false ∧ Idle s ∧
      SessionOpen s ∧ s.q.inflight = some enableRecord ∧
      s.q.fifo.length < s.cfg.queueCapacity :=
  ⟨rfl, rfl, rfl, ⟨rfl, rfl⟩, rfl, by decide⟩

/-- A full FIFO; three queued and one in flight for the pair; a full FIFO for the pair on an idle
queue. -/
theorem witness_QueueFullRefused :
    (let s := withQueue (enabled 0b01 []) (List.replicate 4 enableRecord) (some enableRecord)
     issuedCommand .kbdEcho = some (.echo, 0xEE, none) ∧ operandIllegal .kbdEcho = false ∧
      Idle s ∧ SessionOpen s ∧ s.q.fifo.length = s.cfg.queueCapacity) ∧
    (let s := withQueue (enabled 0b01 []) (List.replicate 3 enableRecord) (some enableRecord)
     Idle s ∧ SessionOpen s ∧
      s.cfg.queueCapacity < s.q.fifo.length + (if s.q.inflight = none then 1 else 2)) ∧
    (let s := withQueue (enabled 0b01 []) (List.replicate 4 enableRecord) none
     Idle s ∧ SessionOpen s ∧
      s.cfg.queueCapacity < s.q.fifo.length + (if s.q.inflight = none then 1 else 2)) :=
  ⟨⟨rfl, rfl, rfl, ⟨rfl, rfl⟩, by decide⟩, ⟨rfl, ⟨rfl, rfl⟩, by decide⟩, rfl, ⟨rfl, rfl⟩, by decide⟩

theorem witness_SelectScancodeSetResult :
    ((3 : Byte) = 1 ∨ (3 : Byte) = 2 ∨ (3 : Byte) = 3) ∧
    (let s := enabled 0b01 ([0x00] ++ [])
     Idle s ∧ SessionOpen s ∧ s.q.inflight = none ∧ s.q.fifo = [] ∧ s.cfg.wf ∧
      InputWait [0x00]) ∧
    (let s := withQueue (enabled 0b01 []) (List.replicate 2 enableRecord) (some enableRecord)
     Idle s ∧ SessionOpen s ∧ s.q.inflight = some enableRecord ∧
      s.q.fifo.length + 2 ≤ s.cfg.queueCapacity) :=
  ⟨by decide, ⟨rfl, ⟨rfl, rfl⟩, rfl, rfl, by decide, inputWait_idle⟩, rfl, ⟨rfl, rfl⟩, rfl, by decide⟩

theorem witness_DeviceCommandStarts :
    (let s := enabled 0b01 ([0x02, 0x00] ++ [])
     deviceCommand (.devSelectScancodeSet 0x00) =
        some (.sendCommandAndDataAndReceiveResponse, 0xF0, some 0x00) ∧
      deviceCommand (.devSelectScancodeSet 0x01) = some (.sendCommandAndData, 0xF0, some 0x01) ∧
      Idle s ∧ SessionOpen s ∧ s.cfg.wf ∧ s.q.inflight = none ∧ s.q.fifo = [] ∧
      InputWait [0x02, 0x00] ∧ s.env.answers = [0x02, 0x00] ++ []) ∧
    (Idle (disabled []) ∧ ¬ SessionOpen (disabled []) ∧ ¬ SessionOpen (enabled 0b10 [])) :=
  ⟨⟨rfl, rfl, rfl, ⟨rfl, rfl⟩, by decide, rfl, rfl, inputWait_busy, rfl⟩, rfl, by decide, by decide⟩

theorem witness_DeviceCommandWaitsOrIsHandedBack :
    (let s := withQueue (enabled 0b01 []) (List.replicate 3 enableRecord) (some enableRecord)
     deviceCommand .devEnable = some (.ackResponse, 0xF4, none) ∧ Idle s ∧ SessionOpen s ∧
      s.q.inflight = some enableRecord ∧ s.q.fifo.length < s.cfg.queueCapacity) ∧
    (let s := withQueue (enabled 0b01 []) (List.replicate 4 enableRecord) (some enableRecord)
     Idle s ∧ SessionOpen s ∧ s.q.fifo.length = s.cfg.queueCapacity) :=
  ⟨⟨rfl, rfl, ⟨rfl, rfl⟩, rfl, by decide⟩, rfl, ⟨rfl, rfl⟩, by decide⟩

theorem witness_PlainCommands :
    plainByte .ctlDisableAux = some 0xA7 ∧ plainByte (.ctlPulseOutput 0b1110) = some 0xFE ∧
    Idle (disabled ((plainX 0xA7).answers ++ [])) ∧ PlainExchange 0xA7 (plainX 0xA7) ∧
    PlainExchange 0xFE (plainX 0xFE) := ⟨rfl, rfl, rfl, plainX_ok _, plainX_ok _⟩

theorem witness_ParameterCommands :
    Idle (disabled ((parameterX 0x60 0x44).answers ++ [])) ∧
    ParameterExchange 0x60 0x44 (parameterX 0x60 0x44) ∧
    ParameterExchange (BitVec.ofNat 8 (0x60 + (0x1F : BitVec 5).toNat)) 0x44
      (parameterX 0x7F 0x44) ∧
    ParameterExchange 0xD4 0x44 (parameterX 0xD4 0x44) :=
  ⟨rfl, parameterX_ok _ _, parameterX_ok _ _, parameterX_ok _ _⟩

theorem witness_ResponseCommands :
    responseCommandByte (.ctlReadRam 0x1F) = some 0x3F ∧
    Idle (disabled ((responseX 0x3F 0x99).answers ++ [])) ∧
    ResponseExchange 0x3F 0x99 (responseX 0x3F 0x99) := ⟨rfl, rfl, responseX_ok _ _⟩

theorem witness_OtherPulsesRefused :
    (0b1111 : BitVec 4) ≠ 0b1110 ∧ (0b1101 : BitVec 4) ≠ 0b1110 ∧ (0b0000 : BitVec 4) ≠ 0b1110 := by
  decide

/-- A command at each of the twelve pairs of variant and cursor, and a byte of the third class. -/
theorem witness_CheckerTable :
    ((record .ackResponse 0xF4 0 .waitAck).variant = .ackResponse ∧
      (record .ackResponse 0xF4 0 .waitAck).cur = .waitAck) ∧
    (record .echo 0xEE 0 .waitEcho).cur = .waitEcho ∧
    (record .ackResponseWithReturnTwoBytes 0xF2 0 .waitAck).cur = .waitAck ∧
    (record .ackResponseWithReturnTwoBytes 0xF2 0 .waitByte1).cur = .waitByte1 ∧
    (record .ackResponseWithReturnTwoBytes 0xF2 0 .waitByte2).cur = .waitByte2 ∧
    (record .sendCommandAndData 0xED 2 .waitAck1).cur = .waitAck1 ∧
    (record .sendCommandAndData 0xED 2 .waitAck2).cur = .waitAck2 ∧
    (record .sendCommandAndDataSingleAck 0xED 1 .waitAck1).cur = .waitAck1 ∧
    (record .sendCommandAndDataSingleAck 0xED 1 .waitFollowing).cur = .waitFollowing ∧
    (record .sendCommandAndDataAndReceiveResponse 0xF0 0 .waitAck1).cur = .waitAck1 ∧
    (record .sendCommandAndDataAndReceiveResponse 0xF0 0 .waitAck2).cur = .waitAck2 ∧
    (record .sendCommandAndDataAndReceiveResponse 0xF0 0 .waitResponse).cur = .waitResponse ∧
    ((0xFB : Byte) ≠ 0xFA ∧ (0xFB : Byte) ≠ 0xFE ∧ (0xFA : Byte) ≠ 0xEE) :=
  ⟨⟨rfl, rfl⟩, rfl, rfl, rfl, rfl, rfl, rfl, rfl, rfl, rfl, rfl, rfl, by decide⟩

/-- A row with a write, a finish that starts the next command, a row with neither, a byte without a row of
its own, and the closed gate in both its forms. -/
theorem witness_ReceiveWithCommandInFlight :
    (let s := withQueue (enabled 0b01 ([0x00] ++ [])) [] (some enableRecord)
     keyboardByte s.cfg .respResend = some 0xFE ∧ Idle s ∧ SessionOpen s ∧
      s.q.inflight = some enableRecord ∧ isSentinel s.cfg 0xFE = false ∧
      RowAnswers s (checkerRow enableRecord 0xFE) [0x00] []) ∧
    (let s := withQueue (enabled 0b01 ([0x00] ++ [])) [enableRecord] (some enableRecord)
     keyboardByte s.cfg .respAck = some 0xFA ∧
      RowAnswers s (checkerRow enableRecord 0xFA) [0x00] []) ∧
    (let s := presenting (withQueue (enabled 0b01 ([] ++ [])) [] (some enableRecord))
        (.keyboardByte 0x1C)
     s.host.resetLine = false ∧
      (0x1C : Byte) ∉ [s.cfg.overrunCode, 0xFA, 0xFE, 0xEE, 0xAA, 0xFC] ∧
      RowAnswers s (checkerRow enableRecord 0x1C) [] []) ∧
    (Idle (disabled []) ∧ ¬ SessionOpen (disabled []) ∧ ¬ SessionOpen (enabled 0b10 [])) := by
  refine ⟨⟨rfl, rfl, ⟨rfl, rfl⟩, rfl, by decide, rfl, ?_⟩, ⟨rfl, rfl, ?_⟩,
    ⟨rfl, by decide, rfl, ?_⟩, rfl, by decide, by decide⟩
  · rw [if_neg (by decide)]; exact inputWait_idle
  · rw [if_neg (by decide)]; exact inputWait_idle
  · rw [if_pos (by decide)]

theorem witness_ReceiveOnIdleQueue :
    let s := presenting (enabled 0b01 []) (.keyboardByte 0x1C)
    Idle s ∧ SessionOpen s ∧ s.q.inflight = none ∧
    keyboardByte s.cfg .respResend = some 0xFE ∧ isSentinel s.cfg 0xFE = false ∧
    s.host.resetLine = false ∧
    (0x1C : Byte) ∉ [s.cfg.overrunCode, 0xFA, 0xFE, 0xEE, 0xAA, 0xFC] :=
  ⟨rfl, ⟨rfl, rfl⟩, rfl, rfl, by decide, rfl, by decide⟩

theorem witness_SessionSentinels :
    Idle (enabled 0b01 []) ∧ SessionOpen (enabled 0b01 []) ∧
    keyboardByte (enabled 0b01 []).cfg .respKeyDetectionOverrun =
      some (enabled 0b01 []).cfg.overrunCode ∧
    (enabled 0b01 []).cfg.overrunCode ≠ 0xFC ∧ (enabled 0b01 []).cfg.overrunCode ≠ 0xAA := by
  decide

theorem witness_KbdReceiveIdle :
    Idle (enabled 0b01 []) ∧ SessionOpen (enabled 0b01 []) ∧
    (enabled 0b01 []).q.inflight = none ∧
    isSentinel (enabled 0b01 []).cfg 0xFE = false ∧
    isSentinel (enabled 0b01 []).cfg 0xFA = false := by decide

theorem witness_KbdReceiveActive :
    let s := withQueue (enabled 0b01 ([0x02, 0x00] ++ [])) [] (some enableRecord)
    Idle s ∧ SessionOpen s ∧ s.q.inflight = some enableRecord ∧ isSentinel s.cfg 0xFE = false ∧
      RowAnswers s (checkerRow enableRecord 0xFE) [0x02, 0x00] [] := by
  refine ⟨rfl, ⟨rfl, rfl⟩, rfl, by decide, rfl, ?_⟩
  rw [if_neg (by decide)]
  exact inputWait_busy

theorem witness_AwaitedResponses :
    (responseByte .respDataLineHigh = some 0x04 ∧
      (placeWord (.controllerResponse 0xA9 0x04) State.reset).ctl.upc =
        .running (some .auxInterfaceTest)
          [.takeResponse 0xA9, .judgeTest .auxiliary, .ret (.ok .unit)]) ∧
    (let s := { placeWord (.controllerResponse 0xAA 0x55) State.reset with
        env := { State.reset.env with answers := (parameterX 0x60 0x00).answers ++ [] } }
     s.ctl.upc = .running (some .selfTest)
        ([.takeResponse 0xAA] ++ ctlCmd 0x60 ++ [.writeDataSaved, .judgeSelfTest]) ∧
      ParameterExchange 0x60 s.ctl.saved (parameterX 0x60 0x00) ∧
      s.env.answers = (parameterX 0x60 0x00).answers ++ []) :=
  ⟨⟨rfl, rfl⟩, rfl, parameterX_ok _ _, rfl⟩

theorem witness_ResponseNotAwaited :
    responseByte .respClockLineLow = some 0x01 ∧
    ∀ op c p, State.reset.ctl.upc ≠ .running op (.takeResponse c :: p) := by
  refine ⟨rfl, fun op c p h => ?_⟩
  cases h

theorem witness_FrameControllerOperations :
    isControllerOp (.ramWrite 0x01 0x7E) = true ∧ Idle (disabled [0, 0]) ∧
    ∃ t, exec (.ramWrite 0x01 0x7E) (disabled [0, 0]) = .next t := ⟨rfl, rfl, _, rfl⟩

theorem witness_FrameControllerCommands :
    isControllerCommand (.ctlWriteRam 0x1F 0x7E) = true ∧ Idle (disabled [0, 0]) ∧
    ∃ t, exec (.ctlWriteRam 0x1F 0x7E) (disabled [0, 0]) = .next t := ⟨rfl, rfl, _, rfl⟩

theorem witness_FrameSession :
    isSessionInstr .kbdReadId = true ∧ Idle (enabled 0b01 [0]) ∧
    ∃ t, exec .kbdReadId (enabled 0b01 [0]) = .next t := ⟨rfl, rfl, _, rfl⟩

theorem witness_DataWriteRouting :
    State.reset.env.pending = none ∧
    ({ State.reset.env with pending := some 0xD4 } : Env).pending = some 0xD4 ∧
    (31 < 32 ∧ ({ State.reset.env with pending := some 0x7F } : Env).pending =
      some (BitVec.ofNat 8 (0x60 + 31))) := ⟨rfl, rfl, by decide, rfl⟩

/-- A state with a command in flight at its last cursor, one queued, and a RAM record. -/
def busyState : State :=
  { withQueue (enabled 0b01 [0x00]) [enableRecord]
      (some (record .sendCommandAndData 0xED 2 .waitAck2)) with
    env := { (enabled 0b01 [0x00]).env with ram := [(0, 0x44), (31, 0x7E)] }
    host := { State.reset.host with presented := [.request 0x30FA00] } }

theorem witness_StepKeepsInv :
    Inv busyState ∧ ∃ t, step busyState = .next t := by
  refine ⟨⟨⟨fun h => absurd rfl h, fun _ => by decide⟩, ⟨by decide, fun h => ?_, fun c h => ?_,
    fun c h => ?_⟩, by decide⟩, _, rfl⟩
  · cases h
  · cases h; decide
  · cases h

theorem witness_WritesStayGuarded :
    let s := presenting (disabled [0, 0]) (.request 0x15017E)
    WritesGuarded s ∧ ∃ t, step s = .next t := ⟨⟨rfl, rfl⟩, _, rfl⟩

theorem witness_CommandBytesStayLegal :
    let s := presenting (disabled [0, 0]) (.request 0x15017E)
    CommandBytesLegal s ∧ ∃ t, step s = .next t := by
  refine ⟨⟨fun c h => ?_, fun c h => ?_⟩, _, rfl⟩ <;> cases h

theorem witness_ControllerTransitions :
    let s := presenting (disabled (enableX .both true 0x44).answers) (.request 0x180300)
    TransitionInv s ∧ s.host.resetLine = false ∧ ∃ t, step s = .next t := ⟨trivial, rfl, _, rfl⟩

theorem witness_HistoryGrows : ∃ t, step busyState = .next t := ⟨_, rfl⟩

/-- An operation that waits, and the answers that let it go on. -/
theorem witness_WaitingChangesNothing :
    Idle (disabled [0x00]) ∧ ∃ t, exec .cpuReset (disabled [0x00]) = .next t ∧ ¬ Idle t ∧
      t.host.resetLine = false ∧ Idle (runAll (fed t [0x00])) := by
  refine ⟨rfl, _, rfl, ?_, rfl, rfl⟩
  decide

/-- The three operations of the cycle each return `Ok` on these answers. -/
theorem witness_IdempotentCycle :
    Idle (disabled []) ∧ (disabled []).ctl.state = .devicesDisabled ∧
    ∃ t₁ t₂ t₃,
      RunsTo (.enableDevicesAndInterrupts (selectorMask .both))
          (fed (disabled []) (enableX .both true 0x44).answers) t₁ ∧
        t₁.host.result = some (.ok .unit) ∧
      RunsTo .disableDevices (fed t₁ (initX 0x47).answers) t₂ ∧
        t₂.host.result = some (.ok .unit) ∧
      RunsTo (.enableDevicesAndInterrupts (selectorMask .both))
          (fed t₂ (enableX .both true 0x44).answers) t₃ ∧
        t₃.host.result = some (.ok .unit) := by
  refine ⟨rfl, rfl, _, _, _, runsTo_of_idle rfl ?_, ?_, runsTo_of_idle rfl ?_, ?_,
    runsTo_of_idle rfl ?_, ?_⟩ <;> decide +kernel

/-- A running block at the grain of one transaction: with the answer it needs, without it, and standing at
the wait before a write. -/
theorem witness_OneTransactionPerStep :
    (let s := { waiting with env := { waiting.env with answers := [0x00] } }
     s.grain = some 0 ∧ s.host.resetLine = false ∧ (microStep s).isSome = true ∧
      (∃ t, step s = .next t) ∧ (0x00 : Byte).getLsbD 1 = false ∧
      s.ctl.upc = .running (some .startInit) (.pollInput :: .writeCommand 0xAD :: initSequence.tail.tail) ∧
      s.env.answers = 0x00 :: []) ∧
    (¬ Idle waiting ∧ microStep waiting = none) :=
  ⟨⟨rfl, rfl, rfl, ⟨_, rfl⟩, rfl, rfl, rfl⟩, by decide, rfl⟩

end Sys2Proof.Tests
end

section
/-! The scope of the block (00_scope.md): what one step runs, that a running block accepts nothing, and
what a step can do at the ports. A micro-step makes at most one port transaction (`PortAction`); a step
leaves the ports alone or goes on with a sequence (`step_leavesOrGoesOn`). The statements about the history and
about the grain follow from these two facts. -/

namespace Sys2Proof.Machine

open Sys2Proof.Safety

/-! Which instruction a step runs, one equation for each way through `step`. -/

theorem step_of_reset {s : State} (hr : s.host.resetLine = true) : step s = .next s.resetBlock := by
  unfold step
  rw [if_pos hr]

theorem step_of_nothing_presented {s : State} (hr : s.host.resetLine = false) (hi : Idle s)
    (hp : s.host.presented = []) : step s = .next s := by
  simp [step, hr, hi, hp]

theorem step_of_presented {s : State} {w : Presented} {ws : List Presented} {i : Instr}
    (hr : s.host.resetLine = false) (hi : Idle s) (hp : s.host.presented = w :: ws)
    (hd : decode s.cfg w = .ok i) :
    step s = exec i { s with host := { s.host with presented := ws } } := by
  simp [step, hr, hi, hp, hd]

theorem step_of_rejected {s : State} {w : Presented} {ws : List Presented} {r : DecodeReject}
    (hr : s.host.resetLine = false) (hi : Idle s) (hp : s.host.presented = w :: ws)
    (hd : decode s.cfg w = .error r) :
    step s = stepRejected r { s with host := { s.host with presented := ws } } := by
  simp [step, hr, hi, hp, hd]

theorem step_of_response {s : State} {op : Option Instr} {c r : Byte} {p : List Micro}
    {bs : List Byte} {i : Instr} (hr : s.host.resetLine = false)
    (hu : s.ctl.upc = .running op (.takeResponse c :: p)) (ha : s.env.answers = r :: bs)
    (hd : decode s.cfg (.controllerResponse c r) = .ok i) :
    step s = exec i { s with env := { s.env with answers := bs } } := by
  simp [step, hr, hu, ha, hd, awaitedResponse]

/-- Settles O2: each clause is one way through `step`. -/
theorem stepRunsDecoded : Obligations.StepRunsDecoded :=
  ⟨fun _ _ _ _ hr hi hp hd => step_of_presented hr hi hp hd,
    fun _ hr hi hp => step_of_nothing_presented hr hi hp,
    fun _ _ _ _ _ _ _ hr hu ha hd => step_of_response hr hu ha hd⟩

/-! A running block accepts nothing but the response it awaits. -/

section
variable {s : State} {op : Option Instr} {p : List Micro} (hu : s.ctl.upc = .running op p)
include hu

theorem plainCommand_running (i : Instr) (c : Byte) : plainCommand i c s = .next s :=
  accept_running hu _

theorem parameterCommand_running (i : Instr) (c d : Byte) : parameterCommand i c d s = .next s :=
  accept_running hu _

theorem responseCommand_running (i : Instr) (c : Byte) : responseCommand i c s = .next s :=
  accept_running hu _

theorem enableOperation_running (i : Instr) (sel : BitVec 2) (irq : Bool) :
    enableOperation i sel irq s = .next s :=
  accept_running hu _

theorem issue_running (i : Instr) (legal : Bool) (v : Variant) (cmd : Byte) (payload : Option Byte) :
    issue i legal v cmd payload s = .next s :=
  accept_running hu _

theorem queueAddNew_running (i : Instr) (v : Variant) (cmd : Byte) (payload : Option Byte) :
    queueAddNew i v cmd payload s = .next s :=
  accept_running hu _

theorem receiveByte_running (i : Option Instr) (b : Byte) : receiveByte i b s = .next s :=
  accept_running hu _

/-- Every meaning stands behind the acceptance of 00_scope.md R8, but for a controller response, which the
running operation reads itself, and a pulse command never emitted. -/
theorem exec_running {i : Instr} (hresp : responseByte i = none)
    (hpulse : ∀ mask, i = .ctlPulseOutput mask → mask = 0b1110) : exec i s = .next s := by
  cases i
  case enableDevices | enableDevicesAndInterrupts => exact enableOperation_running hu ..
  case kbdDisable | kbdSetDefaults | kbdEnable | kbdSetLeds | kbdSetTypematic | kbdReadId | kbdEcho =>
    exact issue_running hu ..
  case ctlDisableAux | ctlEnableAux | ctlDisableKbd | ctlEnableKbd =>
    exact plainCommand_running hu ..
  case ctlPulseOutput mask =>
    obtain rfl := hpulse mask rfl
    exact plainCommand_running hu ..
  case ctlWriteCommandByte | ctlWriteRam | ctlWriteToAux => exact parameterCommand_running hu ..
  case ctlReadCommandByte | ctlReadRam | ctlAuxTest | ctlSelfTest | ctlKbdTest =>
    exact responseCommand_running hu ..
  case devSetIndicators | devEcho | devSelectScancodeSet | devReadId | devSetTypematic | devEnable |
      devDisable | devSetDefaults => exact queueAddNew_running hu ..
  case kbdReceive | respAck | respResend | respEchoReply | respBatOk | respBatFail |
      respKeyDetectionOverrun => exact receiveByte_running hu ..
  case respSelfTestPassed | respInterfaceTestPassed | respClockLineLow | respClockLineHigh |
      respDataLineLow | respDataLineHigh => cases hresp
  all_goals
    rw [exec]
    exact accept_running hu _

end

/-- Settles O27: what is not accepted changes nothing. -/
theorem busyNotAccepted : Obligations.BusyNotAccepted :=
  fun _ _ _ _ hu hresp hpulse => exec_running hu hresp hpulse

/-! What a micro-step and a step do at the ports. -/

/-- The environment, the parameters and the bound on one step are the same; the block's own state, the
host interface and the decoder may differ. -/
structure SamePorts (s t : State) : Prop where
  env : t.env = s.env
  cfg : t.cfg = s.cfg
  grain : t.grain = s.grain

theorem SamePorts.trans {s t u : State} (h : SamePorts s t) (h' : SamePorts t u) :
    SamePorts s u where
  env := h'.env.trans h.env
  cfg := h'.cfg.trans h.cfg
  grain := h'.grain.trans h.grain

/-- At most one port transaction (00_scope.md R6): none, or one of the four of R15. -/
inductive PortAction (s : State) : State → Prop where
  | silent : PortAction s s
  | statusRead {b : Byte} {bs : List Byte} (ha : s.env.answers = b :: bs) :
      PortAction s (s.readsStatus b bs)
  | dataRead {b : Byte} {bs : List Byte} (ha : s.env.answers = b :: bs) :
      PortAction s (s.readsData b bs)
  | commandWrite (c : Byte) : PortAction s (s.writesCommand c)
  | dataWrite (d : Byte) : PortAction s (s.writesData d)

theorem samePorts_startFront (s : State) (op : Option Instr) (p : List Micro) :
    SamePorts s (s.startFront op p) := by
  unfold State.startFront
  split <;> exact ⟨rfl, rfl, rfl⟩

/-- The step at the head of a sequence makes its transaction, if it is one, and the rest of what it does
is an update of the block's own state or a result. -/
theorem microExec_portAction {op : Option Instr} {m : Micro} {p : List Micro} {s s' : State}
    (h : microExec op m p s = some s') : ∃ u, PortAction s u ∧ SamePorts u s' := by
  cases m
  case pollInput | pollStale | pollResponse | pollOwner =>
    simp only [microExec] at h
    split at h
    · cases h
    · rename_i hans
      split at h <;> cases h <;> exact ⟨_, .statusRead hans, rfl, rfl, rfl⟩
  case reportStatus =>
    simp only [microExec] at h
    split at h
    · cases h
    · rename_i hans
      cases h
      exact ⟨_, .statusRead hans, rfl, rfl, rfl⟩
  case dropStale | takeResponse | takeOwned =>
    simp only [microExec] at h
    split at h
    · cases h
    · rename_i hans
      cases h
      exact ⟨_, .dataRead hans, rfl, rfl, rfl⟩
  case writeCommand c => cases h; exact ⟨_, .commandWrite c, rfl, rfl, rfl⟩
  case writeData | writeDataCb | writeDataSaved =>
    cases h
    exact ⟨_, .dataWrite _, rfl, rfl, rfl⟩
  case judgeTest | judgeSelfTest =>
    simp only [microExec] at h
    split at h <;> cases h <;> exact ⟨_, .silent, rfl, rfl, rfl⟩
  case queueAdd c =>
    simp only [microExec] at h
    split at h
    · cases h; exact ⟨_, .silent, rfl, rfl, rfl⟩
    · split at h <;> cases h
      · exact ⟨s, .silent, .trans (t := { s with q := { s.q with fifo := s.q.fifo ++ [c] } })
          ⟨rfl, rfl, rfl⟩ (samePorts_startFront _ op p)⟩
      · exact ⟨_, .silent, rfl, rfl, rfl⟩
  case finishCommand => cases h; exact ⟨s, .silent, samePorts_startFront s op p⟩
  all_goals cases h; exact ⟨_, .silent, rfl, rfl, rfl⟩

theorem microStep_portAction {s s' : State} (h : microStep s = some s') :
    ∃ u, PortAction s u ∧ SamePorts u s' := by
  unfold microStep at h
  split at h
  · cases h
  · cases h; exact ⟨_, .silent, rfl, rfl, rfl⟩
  · exact microExec_portAction h

/-- The ports are left alone, and then at most a sequence goes on from there as far as one step may. -/
inductive LeavesOrGoesOn (s : State) : State → Prop where
  | leaves {u : State} (h : SamePorts s u) : LeavesOrGoesOn s u
  | goesOn {u : State} (h : SamePorts s u) : LeavesOrGoesOn s (advance u)

theorem LeavesOrGoesOn.of_samePorts {s s' t : State} (h : LeavesOrGoesOn s' t)
    (hs : SamePorts s s') : LeavesOrGoesOn s t := by
  cases h with
  | leaves h => exact .leaves (hs.trans h)
  | goesOn h => exact .goesOn (hs.trans h)

/-- A word that is no instruction is answered at once, goes to the session, or is not read. -/
theorem stepRejected_leavesOrGoesOn {r : DecodeReject} {s t : State} (hi : Idle s)
    (h : stepRejected r s = .next t) : LeavesOrGoesOn s t := by
  cases r with
  | unknownOperation => cases h; exact .leaves ⟨rfl, rfl, rfl⟩
  | plainKeyboardByte b =>
    rcases receiveByte_next hi h with ⟨e, rfl⟩ | ⟨-, rfl⟩
    · exact .leaves ⟨rfl, rfl, rfl⟩
    · exact .goesOn ⟨rfl, rfl, rfl⟩
  | plainResponse b => cases h; exact .leaves ⟨rfl, rfl, rfl⟩
  | notAControllerCommand b => cases h
  | notADeviceCommand b => cases h

/-- Everything a step does at the ports it does by going on with one sequence. -/
theorem step_leavesOrGoesOn {s t : State} (h : step s = .next t) :
    LeavesOrGoesOn s t := by
  cases hr : s.host.resetLine with
  | true =>
    rw [step_of_reset hr] at h
    cases h
    exact .leaves ⟨rfl, rfl, rfl⟩
  | false =>
    cases hu : s.ctl.upc with
    | running op p =>
      rw [step_running hr hu] at h
      cases h
      exact .goesOn ⟨rfl, rfl, rfl⟩
    | idle =>
      cases hp : s.host.presented with
      | nil =>
        rw [step_of_nothing_presented hr hu hp] at h
        cases h
        exact .leaves ⟨rfl, rfl, rfl⟩
      | cons w ws =>
        cases hd : decode s.cfg w with
        | ok i =>
          rw [step_of_presented hr hu hp hd] at h
          rcases exec_idle_cases (by exact hu) h with rfl | ⟨e, rfl⟩ | ⟨k, prog, -, rfl⟩
          · exact .leaves ⟨rfl, rfl, rfl⟩
          · exact .leaves ⟨rfl, rfl, rfl⟩
          · exact .goesOn ⟨rfl, rfl, rfl⟩
        | error r =>
          rw [step_of_rejected hr hu hp hd] at h
          exact (stepRejected_leavesOrGoesOn (by exact hu) h).of_samePorts ⟨rfl, rfl, rfl⟩

/-! The history. -/

/-- What the second state adds to the history of the first; the parameters and the bound on one step are
the same. -/
structure HistoryExtends (s t : State) : Prop where
  cfg : t.cfg = s.cfg
  grain : t.grain = s.grain
  trace : s.env.trace <+: t.env.trace
  kbdSent : s.env.kbdSent <+: t.env.kbdSent
  auxSent : s.env.auxSent <+: t.env.auxSent
  answers : t.env.answers <:+ s.env.answers

theorem HistoryExtends.trans {s t u : State} (h : HistoryExtends s t) (h' : HistoryExtends t u) :
    HistoryExtends s u where
  cfg := h'.cfg.trans h.cfg
  grain := h'.grain.trans h.grain
  trace := h.trace.trans h'.trace
  kbdSent := h.kbdSent.trans h'.kbdSent
  auxSent := h.auxSent.trans h'.auxSent
  answers := h'.answers.trans h.answers

theorem SamePorts.historyExtends {s t : State} (h : SamePorts s t) : HistoryExtends s t := by
  obtain ⟨henv, hcfg, hgrain⟩ := h
  constructor <;> simp [henv, hcfg, hgrain]

/-- A data byte is added to what at most one of the two devices has received (20_memory.md R63). -/
theorem sent_extends_writesData (s : State) (d : Byte) :
    s.env.kbdSent <+: (s.writesData d).env.kbdSent ∧
      s.env.auxSent <+: (s.writesData d).env.auxSent := by
  unfold State.writesData
  split
  · simp
  · split <;> simp

theorem PortAction.historyExtends {s t : State} (h : PortAction s t) : HistoryExtends s t := by
  cases h with
  | silent => constructor <;> simp
  | statusRead ha => constructor <;> simp [ha]
  | dataRead ha => constructor <;> simp [ha]
  | commandWrite c => constructor <;> simp
  | dataWrite d =>
    obtain ⟨hkbd, haux⟩ := sent_extends_writesData s d
    exact ⟨by simp, by simp, by simp, hkbd, haux, by simp⟩

theorem microStep_historyExtends {s s' : State} (h : microStep s = some s') :
    HistoryExtends s s' := by
  obtain ⟨u, hact, hsame⟩ := microStep_portAction h
  exact hact.historyExtends.trans hsame.historyExtends

theorem step_historyExtends {s t : State} (h : step s = .next t) : HistoryExtends s t := by
  cases step_leavesOrGoesOn h with
  | leaves hsame => exact hsame.historyExtends
  | goesOn hsame =>
    exact advance_induction (P := HistoryExtends s)
      (fun _ _ hext hm => hext.trans (microStep_historyExtends hm)) hsame.historyExtends

/-- Settles O57: the history grows over every micro-step, so over any number of them. -/
theorem historyGrows : Obligations.HistoryGrows := by
  intro s t h
  obtain ⟨hcfg, hgrain, htrace, hkbd, haux, hans⟩ := step_historyExtends h
  exact ⟨hcfg, hgrain, htrace, hkbd, haux, hans⟩

/-! The grain of 00_scope.md R6. -/

theorem PortAction.trace_cases {s t : State} (h : PortAction s t) :
    t.env.trace = s.env.trace ∨ ∃ x, t.env.trace = s.env.trace ++ [x] := by
  cases h with
  | silent => exact .inl rfl
  | statusRead ha => exact .inr ⟨_, rfl⟩
  | dataRead ha => exact .inr ⟨_, rfl⟩
  | commandWrite c => exact .inr ⟨_, rfl⟩
  | dataWrite d => exact .inr ⟨_, State.writesData_env_trace s d⟩

theorem microStep_trace_cases {s s' : State} (h : microStep s = some s') :
    s'.env.trace = s.env.trace ∨ ∃ x, s'.env.trace = s.env.trace ++ [x] := by
  obtain ⟨u, hact, hsame⟩ := microStep_portAction h
  rw [hsame.env]
  exact hact.trace_cases

/-- At the grain of R6 going on is one micro-step or a wait. -/
theorem advance_trace_cases {s : State} (hg : s.grain = some 0) :
    (advance s).env.trace = s.env.trace ∨ ∃ x, (advance s).env.trace = s.env.trace ++ [x] := by
  cases hm : microStep s with
  | none => exact .inl (by rw [advance_of_blocked hm])
  | some s' =>
    rw [advance_fine hg hm]
    exact microStep_trace_cases hm

theorem step_trace_cases {s t : State} (hg : s.grain = some 0) (h : step s = .next t) :
    t.env.trace = s.env.trace ∨ ∃ x, t.env.trace = s.env.trace ++ [x] := by
  cases step_leavesOrGoesOn h with
  | leaves hsame => exact .inl (by rw [hsame.env])
  | goesOn hsame =>
    rw [← hsame.env]
    exact advance_trace_cases (hsame.grain.trans hg)

/-- A block that is not idle only goes on. -/
theorem step_of_not_idle {s : State} (hr : s.host.resetLine = false) (hi : ¬ Idle s) :
    step s = .next (advance s) := by
  cases hu : s.ctl.upc with
  | idle => exact absurd hu hi
  | running op p => exact step_running hr hu

theorem step_of_microStep {s s' : State} (hg : s.grain = some 0) (hr : s.host.resetLine = false)
    (hm : microStep s = some s') : step s = .next s' := by
  have hi : ¬ Idle s := fun hi => by simp [microStep_idle hi] at hm
  rw [step_of_not_idle hr hi, advance_fine hg hm]

/-- A status byte with bit 1 clear ends `WaitInputEmpty` (41_port_handshake.md R135). -/
theorem microStep_pollInput_ends {s : State} {op : Option Instr} {b : Byte} {p : List Micro}
    {bs : List Byte} (hu : s.ctl.upc = .running op (.pollInput :: p))
    (ha : s.env.answers = b :: bs) (hb : b.getLsbD 1 = false) :
    microStep s = some ((s.readsStatus b bs).continueAt op p) := by
  have hclear : (decodeStatus s.cfg.passwordActiveLevel b).inputFull = false := hb
  simp [microStep, microExec, hu, ha, hclear]

/-- The reset input leaves the block idle and the ports as they are, in the middle of an operation too
(70_reset_and_hazards.md R302). -/
theorem step_reset_idle {s : State} (hr : s.host.resetLine = true) :
    ∃ t, step s = .next t ∧ Idle t ∧ t.env = s.env :=
  ⟨_, step_of_reset hr, rfl, rfl⟩

/-- Settles O60: a step at the grain of R6 is one micro-step, and the status read that ends a wait is a
micro-step of its own, so the reset input can fall behind it. -/
theorem oneTransactionPerStep : Obligations.OneTransactionPerStep := by
  refine ⟨rfl, ?atMostOne, fun s s' => step_of_microStep, ?waits, ?resetBetween⟩
  case atMostOne =>
    intro s t hg h
    exact ⟨(step_historyExtends h).grain.trans hg, step_trace_cases hg h⟩
  case waits =>
    intro s hr hi hm
    rw [step_of_not_idle hr hi, advance_of_blocked hm]
  case resetBetween =>
    intro s op c b p bs hg hr hb hu ha
    have hread := step_of_microStep hg hr (microStep_pollInput_ends hu ha hb)
    refine ⟨_, hread, rfl, rfl, ?_⟩
    rintro u rfl
    obtain ⟨v, hstep, hidle, henv⟩ := step_reset_idle (s := { (s.readsStatus b bs).continueAt op
      (.writeCommand c :: p) with host := { s.host with resetLine := true } }) rfl
    exact ⟨v, hstep, hidle, by rw [henv]; rfl⟩

end Sys2Proof.Machine
end

section
/-! The state of the block (10_state.md): its reset values, the bits of a status byte that steer it
(R28), that a wait makes no difference to where an operation ends (R25), and the invariant of the
well-formed states. -/

namespace Sys2Proof.Machine

open Sys2Proof.Safety

/-! Reset. -/

/-- Settles O1: the reset values stand in `State.reset`, and one step takes them whole (log 16). -/
theorem resetValues : Obligations.ResetValues := by
  refine ⟨⟨rfl, rfl, rfl, rfl, rfl, rfl, rfl, rfl⟩, fun s hr => ?_⟩
  exact ⟨s.resetBlock, step_of_reset hr,
    rfl, rfl, rfl, rfl, rfl, rfl, rfl, rfl, rfl, rfl, rfl, rfl, rfl⟩

theorem inv_reset : Inv State.reset :=
  ⟨⟨fun _ => ⟨rfl, rfl⟩, nofun⟩, ⟨Nat.zero_le _, fun _ => rfl, nofun, nofun⟩, reset_ram_wf⟩

/-- Settles O53: after reset nothing is in flight, nothing has been written and no step is left to do. -/
theorem resetIsWellFormed : Obligations.ResetIsWellFormed :=
  ⟨inv_reset, ⟨rfl, rfl⟩, ⟨nofun, nofun⟩, trivial⟩

/-! The status byte (R28). -/

/-- Where a status read that decides something goes on: `full` is bit 1 of the byte read, `owner` what its
bits 5 and 0 say (40_status_decoder.md R123, R126). -/
def statusDecides (op : Option Instr) (m : Micro) (p : List Micro) (full : Bool)
    (owner : Option Owner) (s : State) : State :=
  match m with
  | .pollInput => if full then s else s.continueAt op p
  | .pollStale => s.continueAt op (if owner = none then p else .dropStale :: p)
  | .pollResponse _ => if owner = some .keyboardOrCommandController then s.continueAt op p else s
  | .pollOwner =>
    match owner with
    | none => s.returns (.ok .noData)
    | some o => s.continueAt op (.takeOwned o :: p)
  | _ => s

/-- The four status reads that decide something look at the byte through bit 1 and its owner only. -/
theorem microExec_statusRead {op : Option Instr} {m : Micro} {p : List Micro} {s : State} {b : Byte}
    {bs : List Byte}
    (hm : m = .pollInput ∨ m = .pollStale ∨ (∃ c, m = .pollResponse c) ∨ m = .pollOwner)
    (ha : s.env.answers = b :: bs) :
    microExec op m p s =
      some (statusDecides op m p (b.getLsbD 1) (statusOwner b) (s.readsStatus b bs)) := by
  rcases hm with rfl | rfl | ⟨c, rfl⟩ | rfl <;>
    simp only [microExec, ha, decodeStatus_inputFull, decodeStatus_data, statusDecides]
  case inl | inr.inr.inl => exact (apply_ite some ..).symm
  case inr.inl | inr.inr.inr => cases statusOwner b <;> rfl

/-- The decision is made before the transaction is recorded or after it, all the same. -/
theorem statusDecides_readsStatus (op : Option Instr) (m : Micro) (p : List Micro) (full : Bool)
    (owner : Option Owner) (s : State) (b : Byte) (bs : List Byte) :
    let t := statusDecides op m p full owner { s with env := { s.env with answers := bs } }
    statusDecides op m p full owner (s.readsStatus b bs) =
      { t with env := { t.env with trace := s.env.trace ++ [.readStatus b] } } := by
  unfold statusDecides
  cases m
  case pollInput | pollResponse => dsimp only; split <;> rfl
  case pollOwner => cases owner <;> rfl
  all_goals rfl

theorem statusOwner_of_steerAlike {b b' : Byte} (h : SteerAlike b b') :
    statusOwner b = statusOwner b' := by
  obtain ⟨h0, -, h5⟩ := h
  unfold statusOwner
  rw [h0, h5]

/-- Settles O9: a status read decides by bit 1 and by the owner, which is a matter of bits 0 and 5. -/
theorem statusBitsThatSteer : Obligations.StatusBitsThatSteer := by
  intro op m p s b b' bs hm hsteer
  have hfull : b.getLsbD 1 = b'.getLsbD 1 := hsteer.2.1
  refine ⟨statusDecides op m p (b.getLsbD 1) (statusOwner b)
    { s with env := { s.env with answers := bs } }, ?first, ?second⟩
  case first =>
    rw [microExec_statusRead (b := b) (bs := bs) hm rfl]
    exact congrArg some (statusDecides_readsStatus op m p _ _ s b bs)
  case second =>
    rw [microExec_statusRead (b := b') (bs := bs) hm rfl, ← hfull, ← statusOwner_of_steerAlike hsteer]
    exact congrArg some (statusDecides_readsStatus op m p _ _ s b' bs)

/-! `q_add` (43_command_queue.md R191): on a full queue, on an idle one, and behind a command in flight. -/

theorem microExec_queueAdd_full {s : State} (hf : s.queueFull) (op : Option Instr) (c : Command)
    (p : List Micro) :
    microExec op (.queueAdd c) p s = some (s.returns (.err (.queueFullCommand c))) := if_pos hf

theorem microExec_queueAdd_starts {s : State} (hf : ¬ s.queueFull) (hi : s.q.inflight = none)
    (op : Option Instr) (c : Command) (p : List Micro) :
    microExec op (.queueAdd c) p s =
      some (({ s with q := { s.q with fifo := s.q.fifo ++ [c] } }).startFront op p) := by
  simp only [microExec, if_neg hf, hi]

theorem microExec_queueAdd_behind {s : State} {c₀ : Command} (hf : ¬ s.queueFull)
    (hi : s.q.inflight = some c₀) (op : Option Instr) (c : Command) (p : List Micro) :
    microExec op (.queueAdd c) p s =
      some (({ s with q := { s.q with fifo := s.q.fifo ++ [c] } }).continueAt op p) := by
  simp only [microExec, if_neg hf, hi]

/-! Answers that come later (R25). -/

@[simp] theorem fed_answers (s : State) (bs : List Byte) :
    (fed s bs).env.answers = s.env.answers ++ bs := rfl

theorem statusDecides_fed (op : Option Instr) (m : Micro) (p : List Micro) (full : Bool)
    (owner : Option Owner) (s : State) (bs : List Byte) :
    statusDecides op m p full owner (fed s bs) = fed (statusDecides op m p full owner s) bs := by
  unfold statusDecides
  cases m
  case pollInput | pollResponse => dsimp only; split <;> rfl
  case pollOwner => cases owner <;> rfl
  all_goals rfl

theorem writesData_fed (s : State) (d : Byte) (bs : List Byte) :
    (fed s bs).writesData d = fed (s.writesData d) bs := by
  simp only [State.writesData, fed]
  split
  · rfl
  · split <;> rfl

theorem startFront_fed (s : State) (op : Option Instr) (p : List Micro) (bs : List Byte) :
    (fed s bs).startFront op p = fed (s.startFront op p) bs := by
  simp only [State.startFront, fed]
  split <;> rfl

/-- A micro-step that can be taken is taken alike with more answers listed. -/
theorem microExec_fed {op : Option Instr} {m : Micro} {p : List Micro} {s s' : State}
    (bs : List Byte) (h : microExec op m p s = some s') :
    microExec op m p (fed s bs) = some (fed s' bs) := by
  cases m
  case pollInput | pollStale | pollResponse | pollOwner =>
    cases ha : s.env.answers with
    | nil => simp [microExec, ha] at h
    | cons b rest =>
      rw [microExec_statusRead (by simp) ha] at h
      cases h
      rw [microExec_statusRead (b := b) (bs := rest ++ bs) (by simp) (by simp [ha])]
      exact congrArg some (statusDecides_fed _ _ _ _ _ (s.readsStatus b rest) bs)
  case reportStatus | dropStale | takeResponse | takeOwned =>
    cases ha : s.env.answers with
    | nil => simp [microExec, ha] at h
    | cons b rest =>
      simp only [microExec, ha] at h
      cases h
      simp only [microExec, fed_answers, ha, List.cons_append]
      rfl
  case writeData | writeDataCb | writeDataSaved =>
    cases h
    simp only [microExec, writesData_fed]
    rfl
  case judgeTest =>
    cases ht : interfaceTestMap s.ctl.resp <;>
    · simp only [microExec, ht] at h
      cases h
      simp only [microExec, fed, ht]
      rfl
  case judgeSelfTest =>
    simp only [microExec] at h
    split at h <;> cases h
    · exact if_pos ‹_›
    · exact if_neg ‹_›
  case queueAdd c =>
    by_cases hfull : s.queueFull
    · rw [microExec_queueAdd_full hfull] at h
      cases h
      exact microExec_queueAdd_full (s := fed s bs) hfull op c p
    · cases hin : s.q.inflight with
      | none =>
        rw [microExec_queueAdd_starts hfull hin] at h
        cases h
        rw [microExec_queueAdd_starts (s := fed s bs) hfull hin, ← startFront_fed]
        rfl
      | some c₀ =>
        rw [microExec_queueAdd_behind hfull hin] at h
        cases h
        exact microExec_queueAdd_behind (s := fed s bs) hfull hin op c p
  case finishCommand =>
    cases h
    exact congrArg some (startFront_fed s op p bs)
  all_goals
    cases h
    rfl

theorem microStep_fed {s s' : State} (bs : List Byte) (h : microStep s = some s') :
    microStep (fed s bs) = some (fed s' bs) := by
  unfold microStep at h
  split at h
  · cases h
  · rename_i hu
    cases h
    simp [microStep, fed, hu]
  · rename_i hu
    rw [← microExec_fed bs h]
    simp [microStep, fed, hu]

/-- A sequence that has gone a part of the way ends, on the answers that come later, as it would have ended
with them there from the start. -/
theorem runAll_fed_advance (s : State) (bs : List Byte) :
    runAll (fed (advance s) bs) = runAll (fed s bs) :=
  advance_induction (P := fun u => runAll (fed u bs) = runAll (fed s bs))
    (fun _ _ hu hm => (runAll_of_microStep (microStep_fed bs hm)).symm.trans hu) rfl

/-- What an idle block begins in a state it also begins with more answers listed, and it then runs to where
the first one runs when those answers come; in one step where a step is not bounded. For the whole of an
instruction this is `RunsTo`. -/
def Resumes (k : State → Host.Outcome State Fault Refusal) : Prop :=
  ∀ (s t : State) (bs : List Byte), Idle s → k s = .next t →
    (∃ t', k (fed s bs) = .next t' ∧ runAll t' = runAll (fed t bs)) ∧
    (s.grain = none → k (fed s bs) = .next (runAll (fed t bs)))

/-- The start of a sequence; `f` is what is done to the state before it goes on. -/
theorem resumes_advance {f : State → State} (hfed : ∀ s bs, f (fed s bs) = fed (f s) bs)
    (hgrain : ∀ s, (f s).grain = s.grain) : Resumes fun s => .next (advance (f s)) := by
  intro s t bs _ h
  cases h
  dsimp only
  rw [runAll_fed_advance, hfed]
  refine ⟨⟨_, rfl, runAll_advance _⟩, fun hg => ?_⟩
  rw [advance_whole (s := fed (f s) bs) ((hgrain s).trans hg)]

/-- An answer at once. -/
theorem resumes_answer {f : State → State} (hfed : ∀ s bs, f (fed s bs) = fed (f s) bs)
    (hidle : ∀ s, Idle s → Idle (f s)) : Resumes fun s => .next (f s) := by
  intro s t bs hi h
  cases h
  have hstays : runAll (fed (f s) bs) = fed (f s) bs :=
    runAll_of_blocked (microStep_idle (hidle s hi))
  dsimp only
  rw [hstays, hfed]
  exact ⟨⟨_, rfl, hstays⟩, fun _ => rfl⟩

theorem resumes_launch {prog : State → List Micro} (i : Instr) (k : Nat)
    (hprog : ∀ s bs, prog (fed s bs) = prog s) :
    Resumes fun s => launch i (prog s) (s.usesFree k) :=
  resumes_advance (f := fun s => (s.usesFree k).continueAt (some i) (prog s))
    (fun s bs => by rw [hprog]; rfl) fun _ => rfl

theorem resumes_fail (e : Err) : Resumes (fail e) :=
  resumes_answer (f := fun s => s.returns (.err e)) (fun _ _ => rfl) fun _ _ => rfl

/-- A check that looks at no answer. -/
theorem resumes_ite {c : State → Prop} [∀ s, Decidable (c s)]
    {k k' : State → Host.Outcome State Fault Refusal} (hc : ∀ s bs, c (fed s bs) ↔ c s)
    (hk : Resumes k) (hk' : Resumes k') : Resumes fun s => if c s then k s else k' s := by
  intro s t bs hi h
  by_cases hs : c s
  · simp only [if_pos hs, if_pos ((hc s bs).mpr hs)] at h ⊢
    exact hk s t bs hi h
  · simp only [if_neg hs, if_neg (mt (hc s bs).mp hs)] at h ⊢
    exact hk' s t bs hi h

theorem resumes_accept {k : State → Host.Outcome State Fault Refusal} (hk : Resumes k) :
    Resumes fun s => accept s k := by
  intro s t bs hi h
  simp only [accept_idle hi] at h
  simp only [accept_idle (s := fed s bs) hi]
  exact hk (unanswered s) t bs hi h

theorem resumes_inState {st : ProtocolState} {k : State → Host.Outcome State Fault Refusal}
    (hk : Resumes k) : Resumes fun s => inState st s k :=
  resumes_ite (fun _ _ => Iff.rfl) hk (resumes_fail _)

theorem resumes_sessionGate {k : State → Host.Outcome State Fault Refusal} (hk : Resumes k) :
    Resumes fun s => sessionGate s k :=
  resumes_ite (fun _ _ => Iff.rfl) (resumes_ite (fun _ _ => Iff.rfl) hk (resumes_fail _))
    (resumes_fail _)

/-- A sequence behind the acceptance only. -/
theorem resumes_primitive (i : Instr) (prog : List Micro) :
    Resumes fun s => accept s fun s => launch i prog s :=
  resumes_accept (resumes_launch i 0 fun _ _ => rfl)

/-- A sequence behind the check of the protocol state. -/
theorem resumes_operation (st : ProtocolState) (i : Instr) (prog : List Micro) :
    Resumes fun s => accept s fun s => inState st s fun s => launch i prog s :=
  resumes_accept (resumes_inState (resumes_launch i 0 fun _ _ => rfl))

theorem resumes_enableOperation (i : Instr) (sel : BitVec 2) (irq : Bool) :
    Resumes (enableOperation i sel irq) := by
  unfold enableOperation
  refine resumes_accept (resumes_inState ?_)
  cases selectorOf sel with
  | none => exact resumes_fail _
  | some d => exact resumes_launch i 0 fun _ _ => rfl

theorem resumes_issue (i : Instr) (legal : Bool) (v : Variant) (cmd : Byte) (payload : Option Byte) :
    Resumes (issue i legal v cmd payload) :=
  resumes_accept (resumes_sessionGate (resumes_ite (fun _ _ => Iff.rfl)
    (resumes_ite (fun _ _ => Iff.rfl) (resumes_fail _) (resumes_launch i 1 fun _ _ => rfl))
    (resumes_fail _)))

theorem resumes_queueAddNew (i : Instr) (v : Variant) (cmd : Byte) (payload : Option Byte) :
    Resumes (queueAddNew i v cmd payload) :=
  resumes_accept (resumes_sessionGate (resumes_launch i 1 fun _ _ => rfl))

theorem resumes_receiveByte (op : Option Instr) (b : Byte) : Resumes (receiveByte op b) :=
  resumes_accept (resumes_sessionGate (resumes_advance (fun _ _ => rfl) fun _ => rfl))

/-- A response is read by a running block only: an idle one stays as it is. -/
theorem resumes_deliverResponse (r : Byte) : Resumes (deliverResponse r) := by
  intro s t bs hi h
  have hstays : ∀ u : State, Idle u → deliverResponse r u = .next u := fun u hu => by
    unfold deliverResponse; rw [hu]
  rw [hstays s hi] at h
  cases h
  rw [hstays (fed s bs) hi]
  exact resumes_answer (f := id) (fun _ _ => rfl) (fun _ h => h) s s bs hi rfl

/-- No instruction looks at the answers before its sequence reads them. -/
theorem resumes_exec (i : Instr) : Resumes (exec i) := by
  cases i
  case enableDevices | enableDevicesAndInterrupts => exact resumes_enableOperation _ _ _
  case ramRead idx | ramWrite idx _ =>
    exact resumes_accept (resumes_inState (resumes_ite (fun _ _ => Iff.rfl) (resumes_fail _)
      (resumes_launch _ 0 fun _ _ => rfl)))
  case sendToKeyboard | sendToAuxiliaryDevice =>
    exact resumes_accept (resumes_inState (resumes_ite (fun _ _ => Iff.rfl)
      (resumes_launch _ 0 fun _ _ => rfl) (resumes_fail _)))
  case disableDevices =>
    exact resumes_accept (resumes_inState (resumes_ite (fun _ _ => Iff.rfl)
      (resumes_launch _ 0 fun _ _ => rfl) (resumes_launch _ 0 fun _ _ => rfl)))
  case kbdSelectScancodeSet n =>
    exact resumes_accept (resumes_sessionGate (resumes_ite (fun _ _ => Iff.rfl)
      (resumes_ite (fun _ _ => Iff.rfl) (resumes_fail _) (resumes_launch _ 2 fun _ _ => rfl))
      (resumes_fail _)))
  case kbdDisable | kbdSetDefaults | kbdEnable | kbdSetLeds | kbdSetTypematic | kbdReadId | kbdEcho =>
    exact resumes_issue _ _ _ _ _
  case devSetIndicators | devEcho | devSelectScancodeSet | devReadId | devSetTypematic | devEnable |
      devDisable | devSetDefaults => exact resumes_queueAddNew _ _ _ _
  case kbdReceive | respAck | respResend | respEchoReply | respBatOk | respBatFail =>
    exact resumes_receiveByte _ _
  case respKeyDetectionOverrun => exact fun s => resumes_receiveByte _ s.cfg.overrunCode s
  case respSelfTestPassed | respInterfaceTestPassed | respClockLineLow | respClockLineHigh |
      respDataLineLow | respDataLineHigh => exact resumes_deliverResponse _
  case startInit | setTranslation | selfTest | keyboardInterfaceTest | auxInterfaceTest | cpuReset |
      pollData => exact resumes_operation _ _ _
  case ctlPulseOutput mask =>
    by_cases hm : mask = 0b1110
    · subst hm
      exact resumes_primitive _ _
    · intro s t bs _ h
      rw [exec, execCtlPulseOutput, if_neg hm] at h
      cases h
  all_goals exact resumes_primitive _ _

/-- Settles O58: micro-steps are taken alike with more answers listed, and an instruction begins alike. -/
theorem waitingChangesNothing : Obligations.WaitingChangesNothing := by
  intro i s t bs hi h
  refine ⟨resumes_exec i s t bs hi h, fun ht => ?_, fun ht hr => ?_⟩
  · exact runAll_of_blocked (microStep_idle ht)
  · exact stepsTo_of_advance (step_of_not_idle hr ht) rfl rfl

/-! The invariant of the well-formed states: the queue by itself. -/

/-- The queue keeps its capacity, is empty when nothing is in flight, and its command stands at a cursor of its
variant (R33, R36; 43_command_queue.md R193): what `QueueInv` says of the queue, without the steps left. -/
structure QueueOk (capacity : Nat) (q : Queue) : Prop where
  bounded : q.fifo.length ≤ capacity
  empty_of_idle : q.inflight = none → q.fifo = []
  cursor : ∀ c, q.inflight = some c → CursorLegal c

theorem queueInv_iff {s : State} :
    QueueInv s ↔ QueueOk s.cfg.queueCapacity s.q ∧
      ∀ c, Micro.setInflight c ∈ stepsLeft s → CursorLegal c :=
  ⟨fun ⟨hb, he, hc, hs⟩ => ⟨⟨hb, he, hc⟩, hs⟩, fun ⟨⟨hb, he, hc⟩, hs⟩ => ⟨hb, he, hc, hs⟩⟩

/-- A command that starts stands at a cursor of its variant (43_command_queue.md R192). -/
theorem firstCursor_legal (v : Variant) : firstCursor v ∈ cursorsOf v := by cases v <;> decide

theorem ackRows_cursorLegal {c : Command} {b confirm again : Byte} {confirmed : CheckerRow}
    (h : CursorLegal c) (hconfirmed : CursorLegal confirmed.after) :
    CursorLegal (ackRows c b confirm again confirmed).after := by
  unfold ackRows
  split
  · exact hconfirmed
  · split <;> exact h

/-- Wherever a byte takes a command, it stays at a cursor of its variant (43_command_queue.md R207). -/
theorem checkerRow_cursorLegal {c : Command} (b : Byte) (h : CursorLegal c) :
    CursorLegal (checkerRow c b).after := by
  have moves : ∀ {cur}, cur ∈ cursorsOf c.variant → ∀ r1 r2,
      CursorLegal { c with cur := cur, r1 := r1, r2 := r2 } := fun hcur _ _ => hcur
  unfold checkerRow
  split
  case h_1 | h_2 | h_7 => exact ackRows_cursorLegal h h
  case h_3 hv _ | h_6 hv _ | h_8 hv _ | h_10 hv _ | h_11 hv _ =>
    exact ackRows_cursorLegal h (moves (by rw [hv]; decide) _ _)
  case h_4 hv _ => exact moves (by rw [hv]; decide) _ _
  all_goals exact h

theorem startFront_queueOk {s : State} (h : s.q.fifo.length ≤ s.cfg.queueCapacity)
    (op : Option Instr) (p : List Micro) :
    QueueOk s.cfg.queueCapacity (s.startFront op p).q := by
  unfold State.startFront
  split
  · rename_i hnil
    exact ⟨h, fun _ => hnil, nofun⟩
  · rename_i c fifo hcons
    rw [hcons, List.length_cons] at h
    refine ⟨Nat.le_of_succ_le h, nofun, ?_⟩
    rintro _ ⟨⟩
    exact firstCursor_legal c.variant

/-! The steps left: only the routing of a byte sets the in-flight command (43_command_queue.md R194), and it
sets it to what the checker makes of the one in flight. -/

/-- The micro-step sets the in-flight command's cursor and captures. -/
def isSetInflight : Micro → Bool
  | .setInflight _ => true
  | _ => false

theorem not_mem_setInflight {l : List Micro} (h : l.any isSetInflight = false) (c : Command) :
    Micro.setInflight c ∉ l := fun hc => by
  rw [List.any_eq_false] at h
  exact h _ hc rfl

theorem enableSequence_setInflight (d : EnableDevice) (irq : Bool) :
    (enableSequence d irq).any isSetInflight = false := by
  cases d <;> cases irq <;> rfl

/-- A sequence that an instruction starts routes a byte, or never sets the in-flight command. -/
theorem starts_setInflight {i : Instr} {s : State} {k : Nat} {prog : List Micro}
    (h : Starts i s k prog) :
    (∃ b, prog = sessionReceive s b) ∨ prog.any isSetInflight = false := by
  cases i
  case kbdReceive | respAck | respResend | respEchoReply | respBatOk | respBatFail |
      respKeyDetectionOverrun =>
    obtain ⟨-, -, rfl⟩ := h
    exact .inl ⟨_, rfl⟩
  case respSelfTestPassed | respInterfaceTestPassed | respClockLineLow | respClockLineHigh |
      respDataLineLow | respDataLineHigh => exact h.elim
  case readStatus | ctlReadCommandByte | ctlReadRam | ctlWriteCommandByte | ctlWriteRam | ctlDisableAux |
      ctlEnableAux | ctlAuxTest | ctlSelfTest | ctlKbdTest | ctlDisableKbd | ctlEnableKbd |
      ctlWriteToAux | ctlPulseOutput =>
    obtain ⟨-, rfl⟩ := h
    exact .inr rfl
  case enableDevices | enableDevicesAndInterrupts =>
    obtain ⟨-, -, d, -, rfl⟩ := h
    exact .inr (enableSequence_setInflight d _)
  case disableDevices =>
    obtain ⟨-, -, rfl⟩ := h
    exact .inr (by split <;> rfl)
  case ramRead | ramWrite | sendToKeyboard | sendToAuxiliaryDevice | kbdSetTypematic =>
    obtain ⟨-, -, -, rfl⟩ := h
    exact .inr rfl
  all_goals
    obtain ⟨-, -, rfl⟩ := h
    exact .inr rfl

theorem markerSteps_setInflight (c : Command) : (markerSteps c).any isSetInflight = false := by
  unfold markerSteps
  split
  · split
    · rfl
    · split <;> rfl
  · rfl

theorem sessionAnswer_setInflight (st : QueueStatus) :
    (sessionAnswer st).any isSetInflight = false := by
  cases st with
  | commandInProgress | unexpectedData _ => rfl
  | commandFinished c =>
    rw [sessionAnswer, onFinished]
    split
    · rw [List.any_append, markerSteps_setInflight]
      rfl
    all_goals rfl

theorem setInflight_mem_rowSteps {row : CheckerRow} {c : Command}
    (h : Micro.setInflight c ∈ rowSteps row) : c = row.after := by
  rcases List.mem_append.mp h with hwrite | hend
  · unfold rowWrite at hwrite
    split at hwrite <;> simp [devWriteKbd] at hwrite
  · split at hend
    · simpa using hend
    · simp at hend
    · simp at hend

theorem setInflight_mem_sessionReceive {s : State} {b : Byte} {c : Command}
    (h : Micro.setInflight c ∈ sessionReceive s b) :
    ∃ c₀, s.q.inflight = some c₀ ∧ c = (checkerRow c₀ b).after := by
  unfold sessionReceive at h
  split at h
  · simp at h
  split at h
  · simp at h
  split at h
  · simp [batCompletedSteps] at h
  split at h
  · split at h <;> simp at h
  · rename_i c₀ hin
    rcases List.mem_append.mp h with h | h
    · exact ⟨c₀, hin, setInflight_mem_rowSteps h⟩
    · exact absurd h (not_mem_setInflight (sessionAnswer_setInflight _) c)

/-! What a micro-step does to the parts of the state that the invariant speaks of. -/

/-- The micro-step writes the queue. -/
def isQueueStep : Micro → Bool
  | .queueAdd _ => true
  | .setInflight _ => true
  | .finishCommand => true
  | _ => false

theorem sameMode_startFront (s : State) (op : Option Instr) (p : List Micro) :
    SameMode s (s.startFront op p) := by
  unfold State.startFront
  split <;> exact ⟨rfl, rfl, rfl⟩

/-- No micro-step but the two entries writes `ctl.state`, `ctl.sel` or `ctl.irq` (R21 to R23). -/
theorem microExec_sameMode {op : Option Instr} {m : Micro} {p : List Micro} {s s' : State}
    (hm : isEntry m = false) (h : microExec op m p s = some s') : SameMode s s' := by
  cases m
  case enterDisabled | enterEnabled => cases hm
  case pollInput | pollStale | pollResponse | pollOwner =>
    simp only [microExec] at h
    split at h
    · cases h
    · split at h <;> cases h <;> exact ⟨rfl, rfl, rfl⟩
  case reportStatus | dropStale | takeResponse | takeOwned =>
    simp only [microExec] at h
    split at h <;> cases h
    exact ⟨rfl, rfl, rfl⟩
  case writeData | writeDataCb | writeDataSaved =>
    cases h
    simp [SameMode]
  case judgeTest | judgeSelfTest =>
    simp only [microExec] at h
    split at h <;> cases h <;> exact ⟨rfl, rfl, rfl⟩
  case queueAdd c =>
    simp only [microExec] at h
    split at h
    · cases h; exact ⟨rfl, rfl, rfl⟩
    · split at h <;> cases h
      · exact sameMode_startFront _ op p
      · exact ⟨rfl, rfl, rfl⟩
  case finishCommand => cases h; exact sameMode_startFront s op p
  all_goals cases h; exact ⟨rfl, rfl, rfl⟩

/-- The queue is the same, and every setting of the in-flight command still to come was to come before. -/
structure KeepsQueue (s s' : State) : Prop where
  queue : s'.q = s.q
  settings : ∀ c, Micro.setInflight c ∈ stepsLeft s' → Micro.setInflight c ∈ stepsLeft s

/-- No micro-step but the queue's three writes the queue (R34). -/
theorem microExec_keepsQueue {op : Option Instr} {m : Micro} {p : List Micro} {s s' : State}
    (hu : s.ctl.upc = .running op (m :: p)) (hm : isQueueStep m = false)
    (h : microExec op m p s = some s') : KeepsQueue s s' := by
  cases m
  case queueAdd | setInflight | finishCommand => cases hm
  case pollInput | pollStale | pollResponse | pollOwner =>
    simp only [microExec] at h
    split at h
    · cases h
    · split at h <;> cases h <;> exact ⟨rfl, by simp [stepsLeft, hu]⟩
  case reportStatus | dropStale | takeResponse | takeOwned =>
    simp only [microExec] at h
    split at h <;> cases h
    exact ⟨rfl, by simp [stepsLeft, hu]⟩
  case judgeTest | judgeSelfTest =>
    simp only [microExec] at h
    split at h <;> cases h <;> exact ⟨rfl, by simp [stepsLeft, hu]⟩
  all_goals cases h; exact ⟨by simp, by simp [stepsLeft, hu]⟩

/-- Every micro-step keeps the RAM record canonical: a byte is stored by a data write only
(20_memory.md R62). -/
theorem microStep_ram_wf {s s' : State} (h : microStep s = some s')
    (hw : Memory.wf s.env.ram = true) : Memory.wf s'.env.ram = true := by
  obtain ⟨u, hact, hsame⟩ := microStep_portAction h
  rw [hsame.env]
  cases hact with
  | dataWrite d => exact State.writesData_ram_wf d hw
  | silent | statusRead _ | dataRead _ | commandWrite _ => exact hw

/-! The invariant over a micro-step, one part after the other. -/

theorem controllerInv_of_sameMode {s s' : State} (hinv : ControllerInv s) (h : SameMode s s') :
    ControllerInv s' := by
  obtain ⟨hstate, hsel, hirq⟩ := h
  unfold ControllerInv
  rw [hstate, hsel, hirq]
  exact hinv

/-- Every selector names a device (R22). -/
theorem selectorMask_ne_zero (d : EnableDevice) : selectorMask d ≠ 0 := by cases d <;> decide

theorem microExec_controllerInv {op : Option Instr} {m : Micro} {p : List Micro} {s s' : State}
    (hinv : ControllerInv s) (h : microExec op m p s = some s') : ControllerInv s' := by
  cases hm : isEntry m with
  | false => exact controllerInv_of_sameMode hinv (microExec_sameMode hm h)
  | true =>
    cases m
    case enterDisabled =>
      cases h
      exact ⟨fun _ => ⟨rfl, rfl⟩, nofun⟩
    case enterEnabled d irq =>
      cases h
      exact ⟨fun hne => absurd rfl hne, fun _ => selectorMask_ne_zero d⟩
    all_goals cases hm

/-- Nothing is added to the settings still to come when the front of the FIFO is started. -/
theorem startFront_settings {s : State} {op : Option Instr} {p : List Micro} {c : Command}
    (h : Micro.setInflight c ∈ stepsLeft (s.startFront op p)) : Micro.setInflight c ∈ p := by
  unfold State.startFront at h
  split at h
  · exact h
  · simpa [stepsLeft, devWriteKbd] using h

theorem stepsLeft_running {s : State} {op : Option Instr} {p : List Micro}
    (hu : s.ctl.upc = .running op p) : stepsLeft s = p := by
  unfold stepsLeft
  rw [hu]

theorem microStep_running {s : State} {op : Option Instr} {m : Micro} {p : List Micro}
    (hu : s.ctl.upc = .running op (m :: p)) : microStep s = microExec op m p s := by
  unfold microStep
  rw [hu]

theorem microExec_queueInv {op : Option Instr} {m : Micro} {p : List Micro} {s s' : State}
    (hu : s.ctl.upc = .running op (m :: p)) (hinv : QueueInv s) (h : microExec op m p s = some s') :
    QueueInv s' := by
  have hcfg : s'.cfg = s.cfg := (microStep_historyExtends ((microStep_running hu).trans h)).cfg
  rw [queueInv_iff, stepsLeft_running hu] at hinv
  rw [queueInv_iff, hcfg]
  obtain ⟨hq, hset⟩ := hinv
  have hsetp : ∀ c, Micro.setInflight c ∈ p → CursorLegal c := fun c hc => hset c (.tail m hc)
  cases hm : isQueueStep m with
  | false =>
    obtain ⟨hsame, hsettings⟩ := microExec_keepsQueue hu hm h
    rw [stepsLeft_running hu] at hsettings
    rw [hsame]
    exact ⟨hq, fun c hc => hset c (hsettings c hc)⟩
  | true =>
    cases m
    case setInflight c =>
      cases h
      refine ⟨⟨hq.bounded, nofun, ?_⟩, hsetp⟩
      rintro _ ⟨⟩
      exact hset c (.head p)
    case finishCommand =>
      cases h
      exact ⟨startFront_queueOk hq.bounded op p, fun c hc => hsetp c (startFront_settings hc)⟩
    case queueAdd c =>
      by_cases hfull : s.queueFull
      · rw [microExec_queueAdd_full hfull] at h
        cases h
        exact ⟨hq, nofun⟩
      · have hroom : (s.q.fifo ++ [c]).length ≤ s.cfg.queueCapacity := by
          rw [List.length_append]
          exact Nat.lt_of_le_of_ne hq.bounded hfull
        cases hin : s.q.inflight with
        | none =>
          rw [microExec_queueAdd_starts hfull hin] at h
          cases h
          exact ⟨startFront_queueOk
              (s := { s with q := { s.q with fifo := s.q.fifo ++ [c] } }) hroom op p,
            fun c hc => hsetp c (startFront_settings hc)⟩
        | some c₀ =>
          rw [microExec_queueAdd_behind hfull hin] at h
          cases h
          exact ⟨⟨hroom, fun hnone => absurd (hin.symm.trans hnone) nofun, hq.cursor⟩, hsetp⟩
    all_goals cases hm

/-! The invariant over a step. -/

/-- A sequence may start, or end, where it sets the in-flight command to legal cursors only. -/
theorem inv_of_upc {s : State} (hinv : Inv s) (upc : Upc)
    (h : ∀ c, Micro.setInflight c ∈ stepsLeft { s with ctl := { s.ctl with upc := upc } } →
      CursorLegal c) :
    Inv { s with ctl := { s.ctl with upc := upc } } := by
  obtain ⟨hctl, ⟨hbounded, hempty, hcursor, -⟩, hram⟩ := hinv
  exact ⟨hctl, ⟨hbounded, hempty, hcursor, h⟩, hram⟩

theorem microStep_inv {s s' : State} (hinv : Inv s) (h : microStep s = some s') : Inv s' := by
  obtain ⟨hctl, hqueue, hram⟩ := hinv
  have hram' := microStep_ram_wf h hram
  unfold microStep at h
  split at h
  · cases h
  · cases h
    exact inv_of_upc ⟨hctl, hqueue, hram⟩ .idle nofun
  · rename_i op m p hu
    exact ⟨microExec_controllerInv hctl h, microExec_queueInv hu hqueue h, hram'⟩

/-- The reset puts the queue and the mode at their reset values and leaves the RAM record alone. -/
theorem inv_resetBlock {s : State} (hinv : Inv s) : Inv s.resetBlock := by
  obtain ⟨-, -, hram⟩ := hinv
  exact ⟨⟨fun _ => ⟨rfl, rfl⟩, nofun⟩, ⟨Nat.zero_le _, fun _ => rfl, nofun, nofun⟩, hram⟩

/-- The routing of a byte sets the in-flight command to a cursor of its variant. -/
theorem sessionReceive_cursorLegal {s : State} (hinv : Inv s) (b : Byte) (c : Command)
    (h : Micro.setInflight c ∈ sessionReceive s b) : CursorLegal c := by
  obtain ⟨-, ⟨-, -, hcursor, -⟩, -⟩ := hinv
  obtain ⟨c₀, hin, rfl⟩ := setInflight_mem_sessionReceive h
  exact checkerRow_cursorLegal b (hcursor c₀ hin)

theorem starts_cursorLegal {i : Instr} {s : State} {k : Nat} {prog : List Micro} (hinv : Inv s)
    (h : Starts i s k prog) (c : Command) (hc : Micro.setInflight c ∈ prog) : CursorLegal c := by
  rcases starts_setInflight h with ⟨b, rfl⟩ | hnone
  · exact sessionReceive_cursorLegal hinv b c hc
  · exact absurd hc (not_mem_setInflight hnone c)

/-- Settles O52: reset, every micro-step, the host interface and the start of every sequence keep the
invariant, so every step does. -/
theorem stepKeepsInv : Obligations.StepKeepsInv := by
  intro s t hinv hstep
  refine step_induction (P := Inv) (fun _ => inv_resetBlock) (fun _ _ => microStep_inv)
    (fun _ _ _ h => h) ?answers ?starts ?receives hinv hstep
  case answers => exact fun s r h _ => inv_of_upc h .idle nofun
  case starts =>
    exact fun s i k prog h _ hst => inv_of_upc (s := s.usesFree k) h (.running (some i) prog)
      (starts_cursorLegal h hst)
  case receives =>
    exact fun s b h _ _ => inv_of_upc h (.running none (sessionReceive s b))
      (sessionReceive_cursorLegal h b)

end Sys2Proof.Machine
end

section
/-! The memory of the block (20_memory.md): no data read that a rule does not call for (R69), and where a
data write goes (R62, R63). -/

namespace Sys2Proof.Machine

open Sys2Proof.Safety

/-! Controller responses. -/

/-- The six controller responses are the instructions that stand for the awaited data read
(30_encoding.md R99). -/
theorem exec_eq_deliverResponse {i : Instr} {r : Byte} (h : responseByte i = some r) (s : State) :
    exec i s = deliverResponse r s := by
  cases i
  case respSelfTestPassed | respInterfaceTestPassed | respClockLineLow | respClockLineHigh |
      respDataLineLow | respDataLineHigh => cases h; rfl
  all_goals cases h

theorem deliverResponse_not_awaited {s : State}
    (h : ∀ op c p, s.ctl.upc ≠ .running op (.takeResponse c :: p)) (r : Byte) :
    deliverResponse r s = .next s := by
  unfold deliverResponse
  split
  next op c p hu => exact absurd hu (h op c p)
  next => rfl

/-- Settles O47: a response that nothing awaits is not read (log 12). -/
theorem responseNotAwaited : Obligations.ResponseNotAwaited := fun _ r s hr hnot =>
  (exec_eq_deliverResponse hr s).trans (deliverResponse_not_awaited hnot r)

/-! Data writes. -/

/-- The command byte that writes RAM index `i` addresses that index (R62). -/
theorem ramIndexOf_writeRam {i : Nat} (hi : i < 32) : ramIndexOf (BitVec.ofNat 8 (0x60 + i)) = i := by
  simp only [ramIndexOf, BitVec.extractLsb'_toNat, BitVec.toNat_ofNat, Nat.shiftRight_zero]
  omega

/-- No command that writes the RAM is the one that addresses the auxiliary device (R63). -/
theorem writeRam_ne_auxiliary {i : Nat} (hi : i < 32) : BitVec.ofNat 8 (0x60 + i) ≠ 0xD4 := by
  bv_omega

/-- Settles O51: each clause is one of the three places a data write can go to. -/
theorem dataWriteRouting : Obligations.DataWriteRouting := by
  intro s d
  refine ⟨s.writesData_env_pending d, fun hnone => ?keyboard, fun haux => ?auxiliary,
    fun i hi hram => ?ram⟩
  case keyboard =>
    rw [State.writesData_keyboard hnone]
    exact ⟨rfl, rfl, rfl⟩
  case auxiliary =>
    rw [State.writesData_auxiliary haux]
    exact ⟨rfl, rfl, rfl⟩
  case ram =>
    rw [State.writesData_ram hram (writeRam_ne_auxiliary hi), ramIndexOf_writeRam hi]
    exact ⟨Memory.read_write_same _ _ _, fun _ ha => Memory.read_write_other _ _ ha, rfl, rfl⟩

end Sys2Proof.Machine
end

section
/-! The encodings (30_encoding.md): what the decoder gives and what it rejects (R90 to R106), that no byte
outside the table of R95 reaches the command port (R105(b)), and what the controller commands (R95 to R98),
the controller's responses (R99) and the device commands (R100, R101) do when they are presented by
themselves. -/

namespace Sys2Proof.Machine

open Sys2Proof.Safety Sys2Proof.Laws

/-! The decoder gives back what was encoded. -/

theorem decode_encode : ∀ i : Instr, DecodeEncode.Statement i
  | .readStatus => DecodeEncode.readStatus
  | .startInit => DecodeEncode.startInit
  | .setTranslation en => DecodeEncode.setTranslation en
  | .selfTest => DecodeEncode.selfTest
  | .keyboardInterfaceTest => DecodeEncode.keyboardInterfaceTest
  | .auxInterfaceTest => DecodeEncode.auxInterfaceTest
  | .ramRead idx => DecodeEncode.ramRead idx
  | .ramWrite idx v => DecodeEncode.ramWrite idx v
  | .cpuReset => DecodeEncode.cpuReset
  | .enableDevices sel => DecodeEncode.enableDevices sel
  | .enableDevicesAndInterrupts sel => DecodeEncode.enableDevicesAndInterrupts sel
  | .sendToKeyboard b => DecodeEncode.sendToKeyboard b
  | .sendToAuxiliaryDevice b => DecodeEncode.sendToAuxiliaryDevice b
  | .pollData => DecodeEncode.pollData
  | .disableDevices => DecodeEncode.disableDevices
  | .kbdReceive b => DecodeEncode.kbdReceive b
  | .kbdDisable => DecodeEncode.kbdDisable
  | .kbdSetDefaults => DecodeEncode.kbdSetDefaults
  | .kbdEnable => DecodeEncode.kbdEnable
  | .kbdSetLeds leds => DecodeEncode.kbdSetLeds leds
  | .kbdSetTypematic rate => DecodeEncode.kbdSetTypematic rate
  | .kbdSelectScancodeSet n => DecodeEncode.kbdSelectScancodeSet n
  | .kbdReadId => DecodeEncode.kbdReadId
  | .kbdEcho => DecodeEncode.kbdEcho
  | .ctlReadCommandByte => DecodeEncode.ctlReadCommandByte
  | .ctlReadRam idx => DecodeEncode.ctlReadRam idx
  | .ctlWriteCommandByte d => DecodeEncode.ctlWriteCommandByte d
  | .ctlWriteRam idx d => DecodeEncode.ctlWriteRam idx d
  | .ctlDisableAux => DecodeEncode.ctlDisableAux
  | .ctlEnableAux => DecodeEncode.ctlEnableAux
  | .ctlAuxTest => DecodeEncode.ctlAuxTest
  | .ctlSelfTest => DecodeEncode.ctlSelfTest
  | .ctlKbdTest => DecodeEncode.ctlKbdTest
  | .ctlDisableKbd => DecodeEncode.ctlDisableKbd
  | .ctlEnableKbd => DecodeEncode.ctlEnableKbd
  | .ctlWriteToAux d => DecodeEncode.ctlWriteToAux d
  | .ctlPulseOutput mask => DecodeEncode.ctlPulseOutput mask
  | .devSetIndicators payload => DecodeEncode.devSetIndicators payload
  | .devEcho => DecodeEncode.devEcho
  | .devSelectScancodeSet payload => DecodeEncode.devSelectScancodeSet payload
  | .devReadId => DecodeEncode.devReadId
  | .devSetTypematic payload => DecodeEncode.devSetTypematic payload
  | .devEnable => DecodeEncode.devEnable
  | .devDisable => DecodeEncode.devDisable
  | .devSetDefaults => DecodeEncode.devSetDefaults
  | .respAck => DecodeEncode.respAck
  | .respResend => DecodeEncode.respResend
  | .respEchoReply => DecodeEncode.respEchoReply
  | .respBatOk => DecodeEncode.respBatOk
  | .respBatFail => DecodeEncode.respBatFail
  | .respKeyDetectionOverrun => DecodeEncode.respKeyDetectionOverrun
  | .respSelfTestPassed => DecodeEncode.respSelfTestPassed
  | .respInterfaceTestPassed => DecodeEncode.respInterfaceTestPassed
  | .respClockLineLow => DecodeEncode.respClockLineLow
  | .respClockLineHigh => DecodeEncode.respClockLineHigh
  | .respDataLineLow => DecodeEncode.respDataLineLow
  | .respDataLineHigh => DecodeEncode.respDataLineHigh

/-- Settles O5, instruction by instruction. -/
theorem decodeEncodeAgree : Obligations.DecodeEncodeAgree := fun cfg i => decode_encode i cfg

/-- Settles O4: the words are decoded by evaluation. -/
theorem listedWordsDecode : Obligations.ListedWordsDecode :=
  fun _ => ⟨rfl, rfl, rfl, rfl, rfl, rfl, rfl⟩

/-! What the decoder gives is well formed, interface by interface. -/

theorem decodeRequest_wellFormed {w : RequestWord} {i : Instr} (h : decodeRequest w = .ok i)
    (cfg : Config) : i.wellFormed cfg = true := by
  unfold decodeRequest at h
  dsimp only at h
  split at h <;> cases h <;> rfl

/-- The RAM commands keep their index off 0 (R96); of the pulse range every mask is decoded (R97). -/
theorem decodeControllerCommand_wellFormed {b param : Byte} {i : Instr}
    (h : decodeControllerCommand b param = .ok i) (cfg : Config) :
    i.wellFormed cfg = true ∨
      b.extractLsb' 4 4 = (0b1111 : BitVec 4) ∧ i = .ctlPulseOutput (b.extractLsb' 0 4) := by
  unfold decodeControllerCommand at h
  split at h
  · split at h <;> cases h
    · exact .inl rfl
    · exact .inl (bne_iff_ne.mpr (by assumption))
  split at h
  · split at h <;> cases h
    · exact .inl rfl
    · exact .inl (bne_iff_ne.mpr (by assumption))
  split at h
  · cases h
    exact .inr ⟨by assumption, rfl⟩
  · split at h <;> cases h <;> exact .inl rfl

theorem decodeDeviceCommand_wellFormed {b payload : Byte} {i : Instr}
    (h : decodeDeviceCommand b payload = .ok i) (cfg : Config) : i.wellFormed cfg = true := by
  unfold decodeDeviceCommand at h
  split at h <;> cases h <;> rfl

/-- A sentinel is decoded only where its byte is not the overrun code, which is tested first
(44_keyboard_session.md R251). -/
theorem decodeKeyboardByte_wellFormed {cfg : Config} {b : Byte} {i : Instr}
    (h : decodeKeyboardByte cfg b = .ok i) : i.wellFormed cfg = true := by
  unfold decodeKeyboardByte at h
  split at h
  · cases h
    rfl
  · rename_i hb
    have overrun_ne (c : Byte) (hc : b.toNat = c.toNat) : (cfg.overrunCode != c) = true :=
      bne_iff_ne.mpr fun e => hb ((BitVec.eq_of_toNat_eq hc).trans e.symm)
    split at h <;> cases h <;> exact overrun_ne _ (by assumption)

theorem decodeControllerResponse_wellFormed {after b : Byte} {i : Instr}
    (h : decodeControllerResponse after b = .ok i) (cfg : Config) : i.wellFormed cfg = true := by
  unfold decodeControllerResponse at h
  split at h
  · split at h <;> cases h
    rfl
  · split at h
    · split at h <;> cases h <;> rfl
    · cases h

theorem decode_wellFormed {cfg : Config} {w : Presented} {i : Instr} (h : decode cfg w = .ok i) :
    i.wellFormed cfg = true ∨
      ∃ b param, w = .controllerCommand b param ∧ b.extractLsb' 4 4 = (0b1111 : BitVec 4) ∧
        i = .ctlPulseOutput (b.extractLsb' 0 4) := by
  cases w with
  | request w => exact .inl (decodeRequest_wellFormed h cfg)
  | controllerCommand b param =>
    exact (decodeControllerCommand_wellFormed h cfg).imp_right fun hi => ⟨b, param, rfl, hi⟩
  | deviceCommand b payload => exact .inl (decodeDeviceCommand_wellFormed h cfg)
  | keyboardByte b => exact .inl (decodeKeyboardByte_wellFormed h)
  | controllerResponse after b => exact .inl (decodeControllerResponse_wellFormed h cfg)

/-- Settles O6: a decoded pulse command has the well-formed mask or another. -/
theorem decodedIsWellFormed : Obligations.DecodedIsWellFormed := by
  intro cfg w i h
  rcases decode_wellFormed h with hw | ⟨b, param, -, -, rfl⟩
  · exact .inl hw
  · by_cases hm : b.extractLsb' 0 4 = (0b1110 : BitVec 4)
    · exact .inl (beq_iff_eq.mpr hm)
    · exact .inr ⟨_, hm, rfl⟩

/-! What the decoder rejects (R105). -/

theorem decodeRequest_unknown {w : RequestWord}
    (h : (requestOp w).toNat ∉ [0x00, 0x01, 0x10, 0x11, 0x12, 0x13, 0x14, 0x15, 0x16, 0x17, 0x18,
      0x20, 0x21, 0x22, 0x23, 0x30, 0x31, 0x32, 0x33, 0x34, 0x35, 0x36, 0x37, 0x38]) :
    decodeRequest w = .error .unknownOperation := by
  unfold decodeRequest
  dsimp only
  split
  case h_25 => rfl
  all_goals
    rename_i hop
    rw [hop] at h
    exact absurd h (by decide)

/-- Settles O3: such a code is rejected as `UnknownOperation`, and the answer is an immediate error. -/
theorem unknownOperationAnswered : Obligations.UnknownOperationAnswered := by
  intro s op a b ws hr hi hp hop
  have hd : decode s.cfg (.request (requestWord op a b)) = .error .unknownOperation :=
    decodeRequest_unknown (by rwa [requestOp_requestWord])
  rw [step_of_rejected hr hi hp hd]
  exact fail_of_idle (s := { s with host := { s.host with presented := ws } }) hi _

/-! The bytes of R95, as numbers and as fields. -/

theorem commandByteLegal_iff {b : Byte} :
    commandByteLegal b = true ↔
      (0x20 ≤ b.toNat ∧ b.toNat ≤ 0x3F) ∨ (0x60 ≤ b.toNat ∧ b.toNat ≤ 0x7F) ∨
        b.toNat ∈ [0xA7, 0xA8, 0xA9, 0xAA, 0xAB, 0xAD, 0xAE, 0xD4, 0xFE] := by
  simp only [commandByteLegal, Bool.or_eq_true, Bool.and_eq_true, decide_eq_true_eq,
    List.contains_iff_mem, or_assoc]

theorem commandByteLegal_readRamByte : ∀ idx : BitVec 5, commandByteLegal (readRamByte idx) = true := by
  decide

theorem commandByteLegal_writeRamByte : ∀ idx : BitVec 5,
    commandByteLegal (writeRamByte idx) = true := by
  decide

/-- What the decoder rejects as a controller command is none that the block writes (R105(b)). -/
theorem decodeControllerCommand_rejected {b param : Byte} {r : DecodeReject}
    (h : decodeControllerCommand b param = .error r) : commandByteLegal b = false := by
  unfold decodeControllerCommand at h
  split at h
  · split at h <;> cases h
  split at h
  · split at h <;> cases h
  split at h
  · cases h
  rename_i hread hwrite hpulse
  rw [← BitVec.toNat_inj, BitVec.extractLsb'_toNat, Nat.shiftRight_eq_div_pow] at hread hwrite hpulse
  rw [← Bool.not_eq_true, commandByteLegal_iff]
  simp only [List.mem_cons, List.not_mem_nil, or_false]
  have hlt := b.isLt
  simp only [BitVec.reduceToNat, Nat.reducePow] at hread hwrite hpulse
  split at h
  case h_9 =>
    simp only [imp_false] at *
    omega
  all_goals cases h

/-- Of the pulse range only 0xFE is written (R97). -/
theorem commandByteLegal_pulse {b : Byte} (hrange : b.extractLsb' 4 4 = (0b1111 : BitVec 4))
    (hmask : b.extractLsb' 0 4 ≠ (0b1110 : BitVec 4)) : commandByteLegal b = false := by
  rw [← BitVec.toNat_inj, BitVec.extractLsb'_toNat, Nat.shiftRight_eq_div_pow] at hrange
  rw [ne_eq, ← BitVec.toNat_inj, BitVec.extractLsb'_toNat, Nat.shiftRight_zero] at hmask
  rw [← Bool.not_eq_true, commandByteLegal_iff]
  simp only [List.mem_cons, List.not_mem_nil, or_false]
  simp only [BitVec.reduceToNat, Nat.reducePow] at hrange hmask
  omega

theorem decodeDeviceCommand_rejected {b payload : Byte} {r : DecodeReject}
    (h : decodeDeviceCommand b payload = .error r) :
    b.toNat ∉ [0xED, 0xEE, 0xF0, 0xF2, 0xF3, 0xF4, 0xF5, 0xF6] := by
  unfold decodeDeviceCommand at h
  split at h
  case h_9 =>
    simp only [imp_false] at *
    simp only [List.mem_cons, List.not_mem_nil, or_false]
    omega
  all_goals cases h

/-! Only a command byte that the block never writes has no meaning (log 13, log 24). -/

/-- Settles O39: the meaning names the mask. -/
theorem otherPulsesRefused : Obligations.OtherPulsesRefused := fun _ _ hm => if_neg hm

/-- It ends in a next state from every state. -/
def Answers (k : State → Host.Outcome State Fault Refusal) : Prop := ∀ s, ∃ t, k s = .next t

theorem answers_accept {k : State → Host.Outcome State Fault Refusal} (hk : Answers k) :
    Answers fun s => accept s k := by
  intro s
  dsimp only
  unfold accept
  split
  · exact hk _
  · exact ⟨s, rfl⟩

theorem answers_ite {c : State → Prop} [∀ s, Decidable (c s)]
    {k k' : State → Host.Outcome State Fault Refusal} (hk : Answers k) (hk' : Answers k') :
    Answers fun s => if c s then k s else k' s := by
  intro s
  dsimp only
  split
  · exact hk s
  · exact hk' s

theorem answers_fail (e : Err) : Answers (fail e) := fun _ => ⟨_, rfl⟩

theorem answers_launch (i : Instr) (prog : State → List Micro) (k : Nat) :
    Answers fun s => launch i (prog s) (s.usesFree k) := fun _ => ⟨_, rfl⟩

theorem answers_inState {st : ProtocolState} {k : State → Host.Outcome State Fault Refusal}
    (hk : Answers k) : Answers fun s => inState st s k := answers_ite hk (answers_fail _)

theorem answers_sessionGate {k : State → Host.Outcome State Fault Refusal} (hk : Answers k) :
    Answers fun s => sessionGate s k :=
  answers_ite (answers_ite hk (answers_fail _)) (answers_fail _)

theorem answers_primitive (i : Instr) (prog : List Micro) :
    Answers fun s => accept s fun s => launch i prog s :=
  answers_accept (answers_launch i (fun _ => prog) 0)

theorem answers_operation (st : ProtocolState) (i : Instr) (prog : List Micro) :
    Answers fun s => accept s fun s => inState st s fun s => launch i prog s :=
  answers_accept (answers_inState (answers_launch i (fun _ => prog) 0))

theorem answers_enableOperation (i : Instr) (sel : BitVec 2) (irq : Bool) :
    Answers (enableOperation i sel irq) := by
  unfold enableOperation
  refine answers_accept (answers_inState ?_)
  cases selectorOf sel with
  | none => exact answers_fail _
  | some d => exact answers_launch i (fun _ => enableSequence d irq) 0

theorem answers_issue (i : Instr) (legal : Bool) (v : Variant) (cmd : Byte) (payload : Option Byte) :
    Answers (issue i legal v cmd payload) :=
  answers_accept (answers_sessionGate (answers_ite (answers_ite (answers_fail _)
    (answers_launch i _ 1)) (answers_fail _)))

theorem answers_queueAddNew (i : Instr) (v : Variant) (cmd : Byte) (payload : Option Byte) :
    Answers (queueAddNew i v cmd payload) :=
  answers_accept (answers_sessionGate (answers_launch i _ 1))

theorem answers_receiveByte (op : Option Instr) (b : Byte) : Answers (receiveByte op b) :=
  answers_accept (answers_sessionGate fun _ => ⟨_, rfl⟩)

theorem answers_deliverResponse (r : Byte) : Answers (deliverResponse r) := by
  intro s
  unfold deliverResponse
  split <;> exact ⟨_, rfl⟩

/-- Every instruction is answered, but for the pulse commands that the block never emits. -/
theorem exec_answers {i : Instr} (hpulse : ∀ mask, i = .ctlPulseOutput mask → mask = 0b1110) :
    Answers (exec i) := by
  cases i
  case enableDevices | enableDevicesAndInterrupts => exact answers_enableOperation _ _ _
  case ramRead | ramWrite =>
    exact answers_accept (answers_inState (answers_ite (answers_fail _) (answers_launch _ _ 0)))
  case sendToKeyboard | sendToAuxiliaryDevice =>
    exact answers_accept (answers_inState (answers_ite (answers_launch _ _ 0) (answers_fail _)))
  case disableDevices =>
    exact answers_accept (answers_inState (answers_ite (answers_launch _ _ 0)
      (answers_launch _ _ 0)))
  case kbdSelectScancodeSet =>
    exact answers_accept (answers_sessionGate (answers_ite (answers_ite (answers_fail _)
      (answers_launch _ _ 2)) (answers_fail _)))
  case kbdDisable | kbdSetDefaults | kbdEnable | kbdSetLeds | kbdSetTypematic | kbdReadId | kbdEcho =>
    exact answers_issue _ _ _ _ _
  case devSetIndicators | devEcho | devSelectScancodeSet | devReadId | devSetTypematic | devEnable |
      devDisable | devSetDefaults => exact answers_queueAddNew _ _ _ _
  case kbdReceive | respAck | respResend | respEchoReply | respBatOk | respBatFail =>
    exact answers_receiveByte _ _
  case respKeyDetectionOverrun => exact fun s => answers_receiveByte _ s.cfg.overrunCode s
  case respSelfTestPassed | respInterfaceTestPassed | respClockLineLow | respClockLineHigh |
      respDataLineLow | respDataLineHigh => exact answers_deliverResponse _
  case startInit | setTranslation | selfTest | keyboardInterfaceTest | auxInterfaceTest | cpuReset |
      pollData => exact answers_operation _ _ _
  case ctlPulseOutput mask =>
    obtain rfl := hpulse mask rfl
    exact answers_primitive _ _
  all_goals exact answers_primitive _ _

/-- A byte presented as a command that the block never writes to the command port (R105(b)), or that is no
device command (R105(c)). -/
def NeverWritten : Presented → Prop
  | .controllerCommand b _ => commandByteLegal b = false
  | .deviceCommand b _ => b.toNat ∉ [0xED, 0xEE, 0xF0, 0xF2, 0xF3, 0xF4, 0xF5, 0xF6]
  | .request _ | .keyboardByte _ | .controllerResponse _ _ => False

theorem exec_decoded_refused {cfg : Config} {w : Presented} {i : Instr} {s : State} {r : Refusal}
    (hd : decode cfg w = .ok i) (h : exec i s = .refused r) : NeverWritten w := by
  have hpulse : ¬ ∀ mask, i = .ctlPulseOutput mask → mask = 0b1110 := fun hp => by
    obtain ⟨t, ht⟩ := exec_answers hp s
    simp [ht] at h
  rcases decode_wellFormed hd with hw | ⟨b, param, rfl, hrange, rfl⟩
  · refine absurd (fun mask hi => ?_) hpulse
    subst hi
    exact beq_iff_eq.mp hw
  · exact commandByteLegal_pulse hrange fun hm => hpulse fun mask hi => by
      cases hi
      exact hm

theorem decodeRequest_error {w : RequestWord} {r : DecodeReject} (h : decodeRequest w = .error r) :
    r = .unknownOperation := by
  unfold decodeRequest at h
  dsimp only at h
  split at h <;> cases h
  rfl

theorem decodeKeyboardByte_error {cfg : Config} {b : Byte} {r : DecodeReject}
    (h : decodeKeyboardByte cfg b = .error r) : r = .plainKeyboardByte b := by
  unfold decodeKeyboardByte at h
  split at h
  · cases h
  · split at h <;> cases h
    rfl

theorem decodeControllerResponse_error {after b : Byte} {r : DecodeReject}
    (h : decodeControllerResponse after b = .error r) : r = .plainResponse b := by
  unfold decodeControllerResponse at h
  split at h
  · split at h <;> cases h
    rfl
  · split at h
    · split at h <;> cases h
      rfl
    · cases h
      rfl

theorem stepRejected_refused {cfg : Config} {w : Presented} {d : DecodeReject} {s : State}
    {r : Refusal} (hd : decode cfg w = .error d) (h : stepRejected d s = .refused r) :
    NeverWritten w := by
  cases w with
  | request w =>
    obtain rfl := decodeRequest_error hd
    cases h
  | controllerCommand b param => exact decodeControllerCommand_rejected hd
  | deviceCommand b payload => exact decodeDeviceCommand_rejected hd
  | keyboardByte b =>
    obtain rfl := decodeKeyboardByte_error hd
    obtain ⟨t, ht⟩ := answers_receiveByte none b s
    rw [stepRejected, receivePlainByte, ht] at h
    cases h
  | controllerResponse after b =>
    obtain rfl := decodeControllerResponse_error hd
    cases h

/-- A step is refused only where an idle block takes such a byte. -/
theorem step_refused {s : State} {r : Refusal} (h : step s = .refused r) :
    s.host.resetLine = false ∧ Idle s ∧
      ∃ w ws, s.host.presented = w :: ws ∧ NeverWritten w := by
  cases hr : s.host.resetLine with
  | true => rw [step_of_reset hr] at h; cases h
  | false =>
    cases hu : s.ctl.upc with
    | running op p => rw [step_running hr hu] at h; cases h
    | idle =>
      cases hp : s.host.presented with
      | nil => rw [step_of_nothing_presented hr hu hp] at h; cases h
      | cons w ws =>
        refine ⟨rfl, hu, w, ws, rfl, ?_⟩
        cases hd : decode s.cfg w with
        | ok i =>
          rw [step_of_presented hr hu hp hd] at h
          exact exec_decoded_refused hd h
        | error d =>
          rw [step_of_rejected hr hu hp hd] at h
          exact stepRejected_refused hd h

/-- Settles O29: a word that is refused stands at one of the two command interfaces. -/
theorem onlyCommandBytesRefused : Obligations.OnlyCommandBytesRefused := by
  intro s r h
  obtain ⟨hr, hi, w, ws, hp, hw⟩ := step_refused h
  refine ⟨hr, hi, ?_⟩
  cases w with
  | controllerCommand b p => exact ⟨b, p, ws, .inl ⟨hp, hw⟩⟩
  | deviceCommand b p => exact ⟨b, p, ws, .inr ⟨hp, hw⟩⟩
  | request | keyboardByte | controllerResponse => exact hw.elim

/-! Command bytes written and to be written (R105(b)). -/

/-- The byte has been written to the command port, or is to be written by a step still to do. -/
def NamesCommand (s : State) (c : Byte) : Prop :=
  Txn.writeCommand c ∈ s.env.trace ∨ Micro.writeCommand c ∈ stepsLeft s

theorem commandBytesLegal_iff {s : State} :
    CommandBytesLegal s ↔ ∀ c, NamesCommand s c → commandByteLegal c = true :=
  ⟨fun ⟨hw, hs⟩ c hc => hc.elim (hw c) (hs c),
    fun h => ⟨fun c hc => h c (.inl hc), fun c hc => h c (.inr hc)⟩⟩

theorem startFront_namesCommand {s : State} {op : Option Instr} {p : List Micro} {c : Byte}
    (h : NamesCommand (s.startFront op p) c) :
    Txn.writeCommand c ∈ s.env.trace ∨ Micro.writeCommand c ∈ p := by
  unfold State.startFront at h
  split at h
  · exact h
  · simpa [NamesCommand, stepsLeft, devWriteKbd] using h

/-- A micro-step names no command byte that was not named before it. -/
theorem microExec_namesCommand {op : Option Instr} {m : Micro} {p : List Micro} {s s' : State}
    (hu : s.ctl.upc = .running op (m :: p)) (h : microExec op m p s = some s') {c : Byte}
    (hc : NamesCommand s' c) : NamesCommand s c := by
  have later : Txn.writeCommand c ∈ s.env.trace ∨ Micro.writeCommand c ∈ p → NamesCommand s c :=
    fun hc => hc.imp_right fun hp => by rw [stepsLeft_running hu]; exact .tail m hp
  cases m
  case pollInput | pollStale | pollResponse | pollOwner =>
    simp only [microExec] at h
    split at h
    · cases h
    · split at h <;> cases h <;> revert hc <;> simp +contextual [NamesCommand, stepsLeft, hu]
  case reportStatus | dropStale | takeResponse | takeOwned =>
    simp only [microExec] at h
    split at h <;> cases h
    exact later (by revert hc; simp +contextual [NamesCommand, stepsLeft])
  case judgeTest | judgeSelfTest =>
    simp only [microExec] at h
    split at h <;> cases h <;> exact later (by revert hc; simp +contextual [NamesCommand, stepsLeft])
  case writeCommand c' =>
    cases h
    simpa [NamesCommand, stepsLeft, hu, or_assoc] using hc
  case queueAdd c' =>
    by_cases hfull : s.queueFull
    · rw [microExec_queueAdd_full hfull] at h
      cases h
      exact later (by revert hc; simp +contextual [NamesCommand, stepsLeft])
    · cases hin : s.q.inflight with
      | none =>
        rw [microExec_queueAdd_starts hfull hin] at h
        cases h
        exact later (startFront_namesCommand
          (s := { s with q := { s.q with fifo := s.q.fifo ++ [c'] } }) hc)
      | some c₀ =>
        rw [microExec_queueAdd_behind hfull hin] at h
        cases h
        exact later hc
  case finishCommand =>
    cases h
    exact later (startFront_namesCommand hc)
  all_goals
    cases h
    exact later (by revert hc; simp +contextual [NamesCommand, stepsLeft])

theorem microStep_namesCommand {s s' : State} (h : microStep s = some s') {c : Byte}
    (hc : NamesCommand s' c) : NamesCommand s c := by
  unfold microStep at h
  split at h
  · cases h
  · cases h
    exact .inl (hc.resolve_right (by simp [stepsLeft]))
  · rename_i hu
    exact microExec_namesCommand hu h hc

/-- The step writes no command byte, or one of the table of R95. -/
def commandStepLegal : Micro → Bool
  | .writeCommand c => commandByteLegal c
  | _ => true

theorem writeCommand_legal {l : List Micro} (h : l.all commandStepLegal = true) {c : Byte}
    (hc : Micro.writeCommand c ∈ l) : commandByteLegal c = true :=
  List.all_eq_true.mp h _ hc

theorem ctlCmdResp_legal {c : Byte} (h : commandByteLegal c = true) :
    (ctlCmdResp c).all commandStepLegal = true := by
  simp [ctlCmdResp, discardStale, ctlCmd, waitCtlData, commandStepLegal, h]

theorem ctlCmdData_legal {c : Byte} (h : commandByteLegal c = true) (d : Byte) :
    (ctlCmdData c d).all commandStepLegal = true := by
  simp [ctlCmdData, ctlCmd, commandStepLegal, h]

theorem enableSequence_legal (d : EnableDevice) (irq : Bool) :
    (enableSequence d irq).all commandStepLegal = true := by
  cases d <;> cases irq <;> rfl

theorem rowSteps_legal (row : CheckerRow) : (rowSteps row).all commandStepLegal = true := by
  obtain ⟨write, after, ending⟩ := row
  cases write <;> cases ending <;> rfl

theorem markerSteps_legal (c : Command) : (markerSteps c).all commandStepLegal = true := by
  unfold markerSteps
  split
  · split
    · rfl
    · split <;> rfl
  · rfl

theorem sessionAnswer_legal (st : QueueStatus) : (sessionAnswer st).all commandStepLegal = true := by
  cases st with
  | commandInProgress | unexpectedData _ => rfl
  | commandFinished c =>
    rw [sessionAnswer, onFinished]
    split
    · rw [List.all_append, markerSteps_legal]
      rfl
    all_goals rfl

/-- The session writes to the keyboard only, never to the command port (43_command_queue.md R212). -/
theorem sessionReceive_legal (s : State) (b : Byte) :
    (sessionReceive s b).all commandStepLegal = true := by
  unfold sessionReceive
  split
  · rfl
  split
  · rfl
  split
  · rfl
  split
  · split <;> rfl
  · rw [receiveSteps, List.all_append, rowSteps_legal, sessionAnswer_legal]
    rfl

/-- Every sequence that an instruction starts writes legal command bytes only. -/
theorem starts_legal {i : Instr} {s : State} {k : Nat} {prog : List Micro} (h : Starts i s k prog) :
    prog.all commandStepLegal = true := by
  cases i
  case kbdReceive | respAck | respResend | respEchoReply | respBatOk | respBatFail |
      respKeyDetectionOverrun =>
    obtain ⟨-, -, rfl⟩ := h
    exact sessionReceive_legal s _
  case respSelfTestPassed | respInterfaceTestPassed | respClockLineLow | respClockLineHigh |
      respDataLineLow | respDataLineHigh => exact h.elim
  case ctlReadRam idx =>
    obtain ⟨-, rfl⟩ := h
    exact ctlCmdResp_legal (commandByteLegal_readRamByte idx)
  case ctlWriteRam idx d =>
    obtain ⟨-, rfl⟩ := h
    exact ctlCmdData_legal (commandByteLegal_writeRamByte idx) d
  case ramRead idx =>
    obtain ⟨-, -, -, rfl⟩ := h
    change (ctlCmdResp (readRamByte idx) ++ _).all commandStepLegal = true
    rw [List.all_append, ctlCmdResp_legal (commandByteLegal_readRamByte idx)]
    rfl
  case ramWrite idx v =>
    obtain ⟨-, -, -, rfl⟩ := h
    change (ctlCmdData (writeRamByte idx) v ++ _).all commandStepLegal = true
    rw [List.all_append, ctlCmdData_legal (commandByteLegal_writeRamByte idx)]
    rfl
  case enableDevices | enableDevicesAndInterrupts =>
    obtain ⟨-, -, d, -, rfl⟩ := h
    exact enableSequence_legal d _
  case disableDevices =>
    obtain ⟨-, -, rfl⟩ := h
    split <;> rfl
  case readStatus | ctlReadCommandByte | ctlWriteCommandByte | ctlDisableAux | ctlEnableAux |
      ctlAuxTest | ctlSelfTest | ctlKbdTest | ctlDisableKbd | ctlEnableKbd | ctlWriteToAux |
      ctlPulseOutput =>
    obtain ⟨-, rfl⟩ := h
    rfl
  case sendToKeyboard | sendToAuxiliaryDevice | kbdSetTypematic =>
    obtain ⟨-, -, -, rfl⟩ := h
    rfl
  all_goals
    obtain ⟨-, -, rfl⟩ := h
    rfl

/-- Settles O55: no micro-step names a new command byte, and every sequence is started with legal ones. -/
theorem commandBytesStayLegal : Obligations.CommandBytesStayLegal := by
  refine ⟨⟨nofun, nofun⟩, fun s t hlegal hstep => ?_⟩
  refine step_induction (P := CommandBytesLegal) ?resets ?microSteps (fun _ _ _ h => h) ?answers
    ?starts ?receives hlegal hstep
  case resets => exact fun _ ⟨hw, _⟩ => ⟨hw, nofun⟩
  case microSteps =>
    intro s s' h hm
    rw [commandBytesLegal_iff] at h ⊢
    exact fun c hc => h c (microStep_namesCommand hm hc)
  case answers => exact fun _ _ ⟨hw, _⟩ _ => ⟨hw, nofun⟩
  case starts =>
    exact fun s i k prog ⟨hw, _⟩ _ hst => ⟨hw, fun _ hc => writeCommand_legal (starts_legal hst) hc⟩
  case receives =>
    exact fun s b ⟨hw, _⟩ _ _ => ⟨hw, fun _ hc => writeCommand_legal (sessionReceive_legal s b) hc⟩

/-! The controller commands by themselves (R95 to R98), each the handshake primitive of its class
(41_port_handshake.md R137 to R139). -/

theorem takesParameter_readRamByte : ∀ idx : BitVec 5, takesParameter (readRamByte idx) = false := by
  decide

theorem takesParameter_writeRamByte : ∀ idx : BitVec 5, takesParameter (writeRamByte idx) = true := by
  decide

/-- The index of R96 as a number. -/
theorem ofNat_writeRam (idx : BitVec 5) : BitVec.ofNat 8 (0x60 + idx.toNat) = writeRamByte idx := by
  simp only [writeRamByte]
  bv_omega

theorem writeRamByte_ne_auxiliary (idx : BitVec 5) : writeRamByte idx ≠ 0xD4 :=
  ofNat_writeRam idx ▸ writeRam_ne_auxiliary idx.isLt

theorem ramIndexOf_writeRamByte (idx : BitVec 5) : ramIndexOf (writeRamByte idx) = idx.toNat :=
  ofNat_writeRam idx ▸ ramIndexOf_writeRam idx.isLt

theorem exec_plain {i : Instr} {c : Byte} (h : plainByte i = some c) (s : State) :
    exec i s = plainCommand i c s ∧ takesParameter c = false := by
  cases i
  case ctlDisableAux | ctlEnableAux | ctlDisableKbd | ctlEnableKbd => cases h; exact ⟨rfl, rfl⟩
  case ctlPulseOutput mask =>
    simp only [plainByte] at h
    split at h <;> cases h
    rename_i hm
    subst hm
    exact ⟨rfl, rfl⟩
  all_goals cases h

theorem exec_response {i : Instr} {c : Byte} (h : responseCommandByte i = some c) (s : State) :
    exec i s = responseCommand i c s ∧ takesParameter c = false := by
  cases i
  case ctlReadCommandByte | ctlAuxTest | ctlSelfTest | ctlKbdTest => cases h; exact ⟨rfl, rfl⟩
  case ctlReadRam idx => cases h; exact ⟨rfl, takesParameter_readRamByte idx⟩
  all_goals cases h

/-- An instruction that stands behind the acceptance only runs to where its sequence ends. -/
theorem runsTo_of_primitive {i : Instr} {prog : List Micro} {s u : State} (hi : Idle s) (hu : Idle u)
    (he : exec i s = accept s fun s => launch i prog s)
    (hrun : runAll ((unanswered s).continueAt (some i) (prog ++ [])) =
      runAll (u.continueAt (some i) [])) : RunsTo i s u := by
  rw [List.append_nil] at hrun
  exact runsTo_of_advance (by rw [he, accept_idle hi]; rfl) (hrun.trans (runAll_nil u _ hu)) rfl

/-- Settles O36: the sequence is `CtlCmd`. -/
theorem plainCommands : Obligations.PlainCommands := by
  intro i c s x rest hc hi hx ha
  obtain ⟨he, hparam⟩ := exec_plain hc s
  exact runsTo_of_primitive hi hi he (runAll_plain hx hparam (s := unanswered s) ha (some i) [])

/-- Settles O38: the sequence is `CtlCmdResp`. -/
theorem responseCommands : Obligations.ResponseCommands := by
  intro i c r s x rest hc hi hx ha
  obtain ⟨he, hparam⟩ := exec_response hc s
  exact runsTo_of_primitive hi hi he (runAll_response hx hparam (s := unanswered s) ha (some i) [])

/-- A parameter command that addresses the controller RAM stores its byte at its index (20_memory.md R62). -/
theorem runsTo_ramCommand {i : Instr} {c d : Byte} {s : State} {x : Exchange} {rest : List Byte}
    (he : exec i s = parameterCommand i c d s) (hi : Idle s) (hparam : takesParameter c = true)
    (hc : c ≠ 0xD4) (hx : ParameterExchange c d x) (ha : s.env.answers = x.answers ++ rest) :
    RunsTo i s (unanswered (ramStored (commanded s rest x.trace) (ramIndexOf c) d)) :=
  runsTo_of_primitive hi hi he (runAll_parameter hx hparam hc (s := unanswered s) ha (some i) [])

/-- The parameter command 0xD4 delivers its byte to the auxiliary device (R63). -/
theorem runsTo_auxiliaryCommand {i : Instr} {d : Byte} {s : State} {x : Exchange} {rest : List Byte}
    (he : exec i s = parameterCommand i 0xD4 d s) (hi : Idle s) (hx : ParameterExchange 0xD4 d x)
    (ha : s.env.answers = x.answers ++ rest) :
    RunsTo i s (unanswered (auxWritten (commanded s rest x.trace) d)) :=
  runsTo_of_primitive hi hi he (runAll_auxiliary hx (s := unanswered s) ha (some i) [])

/-- Settles O37: the sequence is `CtlCmdData`. -/
theorem parameterCommands : Obligations.ParameterCommands := by
  intro d s x rest hi ha
  refine ⟨fun hx => ?commandByte, fun idx hx => ?ram, fun hx => ?auxiliary⟩
  case commandByte => exact runsTo_ramCommand rfl hi rfl (by decide) hx ha
  case ram =>
    rw [ofNat_writeRam] at hx
    rw [← ramIndexOf_writeRamByte]
    exact runsTo_ramCommand rfl hi (takesParameter_writeRamByte idx) (writeRamByte_ne_auxiliary idx)
      hx ha
  case auxiliary => exact runsTo_auxiliaryCommand rfl hi hx ha

/-! The device commands by themselves (R100, R101; log 25). -/

theorem exec_deviceCommand {i : Instr} {v : Variant} {cmd : Byte} {payload : Option Byte}
    (h : deviceCommand i = some (v, cmd, payload)) (s : State) :
    exec i s = queueAddNew i v cmd payload s := by
  cases i
  case devSelectScancodeSet p =>
    simp only [deviceCommand] at h
    rw [exec, execDevSelectScancodeSet]
    split at h <;> cases h
    · rename_i hp
      subst hp
      rfl
    · rename_i hp
      rw [if_neg hp]
  case devSetIndicators | devEcho | devReadId | devSetTypematic | devEnable | devDisable |
      devSetDefaults => cases h; rfl
  all_goals cases h

/-- Behind the closed gate a device command is no `q_add` (43_command_queue.md R212). -/
theorem queueAddNew_closed {s : State} (hi : Idle s) (hg : ¬ SessionOpen s) (i : Instr) (v : Variant)
    (cmd : Byte) (payload : Option Byte) :
    queueAddNew i v cmd payload s = .next (answered s (.err (gateError s))) := by
  rw [queueAddNew, accept_idle hi, sessionGate_error (s := unanswered s) hi hg]
  rfl

theorem queueAddNew_open {s : State} (hi : Idle s) (hg : SessionOpen s) (i : Instr) (v : Variant)
    (cmd : Byte) (payload : Option Byte) :
    queueAddNew i v cmd payload s =
      .next (advance (((unanswered s).usesFree 1).continueAt (some i)
        [.queueAdd (newCommand v cmd payload s.freeCount), .ret (.ok .unit)])) := by
  rw [queueAddNew, accept_idle hi, sessionGate_open (s := unanswered s) hg]
  rfl

theorem newCommand_data {v : Variant} {cmd d : Byte} {payload : Option Byte} {n : Nat}
    (h : payload = some d) : (newCommand v cmd payload n).data = d := by
  subst h
  rfl

/-- The `q_add` of a new command on an idle queue runs to its command in flight (43_command_queue.md R191,
R192). -/
theorem runAll_queueAddNew_idle {s : State} {w rest : List Byte} (hi : Idle s)
    (hin : s.q.inflight = none) (hf : s.q.fifo = []) (hc : s.cfg.wf) (hw : InputWait w)
    (ha : s.env.answers = w ++ rest) (op : Option Instr) (v : Variant) (cmd : Byte)
    (payload : Option Byte) :
    runAll (((unanswered s).usesFree 1).continueAt op
        [.queueAdd (newCommand v cmd payload s.freeCount), .ret (.ok .unit)]) =
      answered { keyboardWritten s w rest cmd with
        q := { fifo := [], inflight := some (newCommand v cmd payload s.freeCount) }
        freeCount := s.freeCount + 3 } (.ok .unit) := by
  rw [runAll_queueAdd_idle (s := (unanswered s).usesFree 1) hin hf hc hw ha, runAll_ret,
    keyboardWritten_usesFree, keyboardWritten_unanswered,
    returns_of_idle (by simpa using hi)]
  simp [answered, unanswered, State.usesFree, newCommand]

/-- Settles O34: the open gate leads to `q_add` on the idle queue, the closed one to its error. -/
theorem deviceCommandStarts : Obligations.DeviceCommandStarts := by
  intro i v cmd payload s hcmd hi
  refine ⟨fun w rest hg hc hin hf hw ha => ?opens, fun hg => ?closes⟩
  case opens =>
    refine ⟨newCommand v cmd payload s.freeCount, rfl, rfl, fun d => newCommand_data, rfl, ?_⟩
    exact runsTo_of_advance
      ((exec_deviceCommand hcmd s).trans (queueAddNew_open hi hg i v cmd payload))
      (runAll_queueAddNew_idle hi hin hf hc hw ha (some i) v cmd payload) rfl
  case closes =>
    rw [exec_deviceCommand hcmd]
    exact queueAddNew_closed hi hg i v cmd payload

/-! The controller's responses (R99; log 12). -/

/-- The end of an interface test (42_controller_fsm.md R156, R157). -/
theorem runAll_judgeTest_ret (s : State) (op : Option Instr) (which : TestedInterface) :
    runAll (s.continueAt op [.judgeTest which, .ret (.ok .unit)]) =
      s.returns (testResult which s.ctl.resp) := by
  unfold testResult
  cases hmap : interfaceTestMap s.ctl.resp with
  | none => rw [runAll_judgeTest_pass hmap, runAll_ret]
  | some e => exact runAll_judgeTest_fail hmap op which _

/-- Settles O46: the awaited byte is read into `ctl.resp`, and the rest of the test goes on with it. -/
theorem awaitedResponses : Obligations.AwaitedResponses := by
  refine ⟨?interfaceTest, ?selfTest⟩
  case interfaceTest =>
    intro i r after which op s hr _ _ hu
    exact runsTo_of_response (exec_eq_deliverResponse hr s) hu (runAll_judgeTest_ret _ _ which)
  case selfTest =>
    intro s x rest hu hx ha
    refine runsTo_of_response (exec_eq_deliverResponse rfl s) hu ?_
    refine (runAll_writeSaved (s := { s.readsData 0x55 s.env.answers with
      ctl := { s.ctl with resp := 0x55 } }) hx ha _ [.judgeSelfTest]).trans ?_
    rw [runAll_judgeSelfTest]
    simp [commanded, ramStored, answered, State.returns, State.readsData]

/-! Frames: what a sequence leaves unchanged is read off its steps. -/

/-- The byte that is written to the data port while `pending` awaits its byte goes to a place of the
footprint (20_memory.md R62, R63). -/
def dataWithin (f : Footprint) : Option Byte → Bool
  | none => f.kbdSent
  | some c => if c = 0xD4 then f.auxSent else f.stored == some (ramIndexOf c)

/-- The micro-step writes nothing outside the footprint, `pending` being the parameter command that awaits
its byte. A step that starts a queued command writes to the keyboard later, so it is left out here. -/
def stepWithin (f : Footprint) (pending : Option Byte) : Micro → Bool
  | .pollInput | .writeCommand _ | .pollStale | .dropStale | .pollResponse _ | .judgeTest _
  | .judgeSelfTest | .returnResponse | .reportStatus | .pollOwner | .takeOwned _ | .ret _ => true
  | .writeData _ | .writeDataCb | .writeDataSaved => dataWithin f pending
  | .takeResponse _ => f.resp
  | .cbFromResp | .cbClearInterrupts | .cbSetTranslate _ | .cbSetInterrupts _ => f.cb
  | .savedFromResp => f.saved
  | .enterDisabled | .enterEnabled _ _ => f.mode
  | .setInflight _ => f.queue
  | .setMarker _ => f.marker
  | .resetDecoder | .decodeByte _ => f.decoder
  | .queueAdd _ | .finishCommand => false

/-- The parameter command that awaits its byte after a micro-step (20_memory.md R63). -/
def pendingAfter (pending : Option Byte) : Micro → Option Byte
  | .writeCommand c => if takesParameter c then some c else none
  | .writeData _ | .writeDataCb | .writeDataSaved => none
  | _ => pending

/-- No step of the sequence writes outside the footprint. -/
def stepsWithin (f : Footprint) : Option Byte → List Micro → Bool
  | _, [] => true
  | pending, m :: p => stepWithin f pending m && stepsWithin f (pendingAfter pending m) p

theorem stepsWithin_cons {f : Footprint} {pending : Option Byte} {m : Micro} {p : List Micro} :
    stepsWithin f pending (m :: p) = true ↔
      stepWithin f pending m = true ∧ stepsWithin f (pendingAfter pending m) p = true := by
  rw [stepsWithin, Bool.and_eq_true]

theorem framed_refl (f : Footprint) (s : State) : Framed f s s := by simp [Framed]

/-- Without keyboard writes a frame does not depend on what was pending before, so frames compose. -/
theorem framed_trans {f : Footprint} (hkbd : f.kbdSent = false) {s t u : State} (h : Framed f s t)
    (h' : Framed f t u) : Framed f s u := by
  have absent {p : Prop} (e : f.kbdSent = true) : p := absurd (hkbd.symm.trans e) nofun
  obtain ⟨cfg, grain, presented, line, mode, cb, saved, resp, queue, marker, decoder, ram, kbd, aux,
    free⟩ := h
  obtain ⟨cfg', grain', presented', line', mode', cb', saved', resp', queue', marker', decoder', ram',
    kbd', aux', free'⟩ := h'
  refine ⟨cfg'.trans cfg, grain'.trans grain, presented'.trans presented, line'.trans line,
    fun e => ?mode, fun e => (cb' e).trans (cb e), fun e => (saved' e).trans (saved e),
    fun e => (resp' e).trans (resp e), fun e => (queue' e).trans (queue e),
    fun e => (marker' e).trans (marker e), fun e => (decoder' e).trans (decoder e),
    fun a ha _ => (ram' a ha absent).trans (ram a ha absent), fun e => (kbd' e).trans (kbd e),
    fun e _ => (aux' e absent).trans (aux e absent), fun e => (free' e).trans (free e)⟩
  case mode =>
    obtain ⟨state, sel, irq⟩ := mode e
    obtain ⟨state', sel', irq'⟩ := mode' e
    exact ⟨state'.trans state, sel'.trans sel, irq'.trans irq⟩

theorem framed_writesData {f : Footprint} {s : State} (d : Byte) (hkbd : f.kbdSent = false)
    (h : dataWithin f s.env.pending = true) : Framed f s (s.writesData d) := by
  cases hp : s.env.pending with
  | none => simp [hp, dataWithin, hkbd] at h
  | some c =>
    rw [hp, dataWithin] at h
    split at h
    · rename_i hc
      subst hc
      rw [State.writesData_auxiliary hp]
      simp [Framed, h]
    · rename_i hc
      have hstored : f.stored = some (ramIndexOf c) := beq_iff_eq.mp h
      rw [State.writesData_ram hp hc]
      simp only [Framed, hstored, ne_eq, Option.some.injEq, implies_true, and_self, and_true, true_and]
      exact fun a ha _ => Memory.read_write_other _ _ (Ne.symm ha)

/-- The rest of the sequence is within the footprint, and nothing outside it has changed since `s₀`. -/
structure RunsWithin (f : Footprint) (s₀ s : State) : Prop where
  framed : Framed f s₀ s
  within : stepsWithin f s.env.pending (stepsLeft s) = true

/-- A micro-step of a sequence within the footprint changes nothing outside it. -/
theorem microExec_within {f : Footprint} (hkbd : f.kbdSent = false) {op : Option Instr} {m : Micro}
    {p : List Micro} {s s' : State} (hu : s.ctl.upc = .running op (m :: p))
    (hw : stepsWithin f s.env.pending (m :: p) = true) (h : microExec op m p s = some s') :
    RunsWithin f s s' := by
  obtain ⟨hm, hp⟩ := stepsWithin_cons.mp hw
  cases m
  case queueAdd | finishCommand => cases hm
  case pollInput | pollStale | pollResponse | pollOwner =>
    simp only [microExec] at h
    split at h
    · cases h
    · split at h <;> cases h <;>
        exact ⟨by simp [Framed], by simp_all [stepsLeft, stepsWithin, stepWithin, pendingAfter]⟩
  case reportStatus | dropStale | takeResponse | takeOwned =>
    simp only [microExec] at h
    split at h <;> cases h
    exact ⟨by simp_all [Framed, stepWithin], by simp_all [stepsLeft, stepsWithin, pendingAfter]⟩
  case judgeTest | judgeSelfTest =>
    simp only [microExec] at h
    split at h <;> cases h <;>
      exact ⟨by simp [Framed], by simp_all [stepsLeft, stepsWithin, pendingAfter]⟩
  case writeData | writeDataCb | writeDataSaved =>
    cases h
    exact ⟨framed_writesData _ hkbd hm, by simpa [stepsLeft, pendingAfter] using hp⟩
  all_goals
    cases h
    exact ⟨by simp_all [Framed, stepWithin], by simp_all [stepsLeft, pendingAfter, stepsWithin]⟩

theorem microStep_within {f : Footprint} (hkbd : f.kbdSent = false) {s s' : State}
    (hw : stepsWithin f s.env.pending (stepsLeft s) = true) (h : microStep s = some s') :
    RunsWithin f s s' := by
  unfold microStep at h
  split at h
  · cases h
  · cases h
    exact ⟨by simp [Framed], rfl⟩
  · rename_i hu
    rw [stepsLeft_running hu] at hw
    exact microExec_within hkbd hu hw h

/-- So far as a step of the model goes with it, a sequence within a footprint is framed by it. -/
theorem advance_framed {f : Footprint} (hkbd : f.kbdSent = false) {s₀ s : State}
    (h : RunsWithin f s₀ s) : Framed f s₀ (advance s) := by
  have hruns : RunsWithin f s₀ (advance s) :=
    advance_induction (fun _ _ ⟨hf, hw⟩ hm => by
      obtain ⟨hf', hw'⟩ := microStep_within hkbd hw hm
      exact ⟨framed_trans hkbd hf hf', hw'⟩) h
  exact hruns.framed

/-- An instruction without keyboard writes whose sequence is within its footprint is framed by it, also where
it ends in an error or waits. -/
theorem exec_framed {i : Instr} {s t : State} (hi : Idle s) (hkbd : (footprint i).kbdSent = false)
    (hstarts : ∀ k prog, Starts i s k prog →
      k = 0 ∧ stepsWithin (footprint i) s.env.pending prog = true)
    (h : exec i s = .next t) : Framed (footprint i) s t := by
  rcases exec_idle_cases hi h with rfl | ⟨e, rfl⟩ | ⟨k, prog, hst, rfl⟩
  · exact framed_refl _ _
  · simp [Framed]
  · obtain ⟨rfl, hw⟩ := hstarts k prog hst
    exact advance_framed hkbd ⟨by simp [Framed], hw⟩

theorem ctlCmdData_within {f : Footprint} {c : Byte} (hc : takesParameter c = true)
    (hf : dataWithin f (some c) = true) (pending : Option Byte) (d : Byte) :
    stepsWithin f pending (ctlCmdData c d) = true := by
  simp [ctlCmdData, ctlCmd, stepsWithin, stepWithin, pendingAfter, hc, hf]

/-- Every controller command writes within its footprint: nothing, `ctl.resp`, or the place its byte goes to
(R98). -/
theorem controllerCommand_within {i : Instr} (hc : isControllerCommand i = true) {s : State} {k : Nat}
    {prog : List Micro} (h : Starts i s k prog) :
    k = 0 ∧ stepsWithin (footprint i) s.env.pending prog = true := by
  cases i
  case ctlReadCommandByte | ctlReadRam | ctlAuxTest | ctlSelfTest | ctlKbdTest | ctlDisableAux |
      ctlEnableAux | ctlDisableKbd | ctlEnableKbd | ctlPulseOutput =>
    obtain ⟨rfl, rfl⟩ := h
    exact ⟨rfl, rfl⟩
  case ctlWriteCommandByte | ctlWriteToAux =>
    obtain ⟨rfl, rfl⟩ := h
    exact ⟨rfl, ctlCmdData_within rfl rfl _ _⟩
  case ctlWriteRam idx d =>
    obtain ⟨rfl, rfl⟩ := h
    have hindex : dataWithin (footprint (.ctlWriteRam idx d)) (some (writeRamByte idx)) = true :=
      (if_neg (writeRamByte_ne_auxiliary idx)).trans (beq_self_eq_true _)
    exact ⟨rfl, ctlCmdData_within (takesParameter_writeRamByte idx) hindex _ d⟩
  all_goals cases hc

/-- Settles O49: the sequence of every controller command is within its footprint. -/
theorem frameControllerCommands : Obligations.FrameControllerCommands := by
  intro i s t hc hi h
  have hkbd : (footprint i).kbdSent = false := by
    cases i <;> cases hc <;> rfl
  exact exec_framed hi hkbd (fun _ _ => controllerCommand_within hc) h

end Sys2Proof.Machine
end

section
/-! The status decoder (40_status_decoder.md): what it reads out of a status byte (R120 to R129), what
`read_status` answers, and what the host operations of the decoder and of the controller FSM leave
unchanged. All of these but `send_to_keyboard` go through `exec_framed`; that one may write while a
parameter command still awaits its byte, and has its own induction (`WritesKeyboard`). -/

namespace Sys2Proof.Machine

open Sys2Proof.Safety

/-! The fields of a status byte. -/

/-- Bit 5 decides whatever bit 0 is (R123). -/
theorem statusOwner_auxiliary {b : Byte} (h5 : b.getLsbD 5 = true) :
    statusOwner b = some .auxiliaryDevice := if_pos h5

theorem statusOwner_controller {b : Byte} (h5 : b.getLsbD 5 = false) (h0 : b.getLsbD 0 = true) :
    statusOwner b = some .keyboardOrCommandController := by
  rw [statusOwner_eq_controller, responseReady, h5, h0]
  rfl

theorem statusOwner_nobody {b : Byte} (h5 : b.getLsbD 5 = false) (h0 : b.getLsbD 0 = false) :
    statusOwner b = none := by
  rw [statusOwner_eq_none, h5, h0]
  rfl

theorem decodeStatus_parity_err {level : Bool} {b : Byte} :
    (decodeStatus level b).parity = .err ↔ b.getLsbD 7 = true := by
  simp [decodeStatus]

theorem decodeStatus_password {level : Bool} {b : Byte} :
    (decodeStatus level b).password = true ↔ b.getLsbD 4 = level := beq_iff_eq

/-- Bit 3 reaches no field (R127). -/
theorem decodeStatus_congr {b b' : Byte} (h : ∀ i, i ≠ 3 → b.getLsbD i = b'.getLsbD i)
    (level : Bool) : decodeStatus level b = decodeStatus level b' := by
  have howner : statusOwner b = statusOwner b' :=
    statusOwner_of_steerAlike ⟨h 0 (by decide), h 1 (by decide), h 5 (by decide)⟩
  simp only [decodeStatus, howner, h 7 (by decide), h 6 (by decide), h 4 (by decide),
    h 2 (by decide), h 1 (by decide)]

/-- Settles O7: each field by its lemma; the rows of the owner exclude each other. -/
theorem statusDecoder : Obligations.StatusDecoder := fun level _ =>
  ⟨decodeStatus_parity_err, rfl, decodeStatus_password, rfl, rfl, statusOwner_auxiliary,
    statusOwner_controller, statusOwner_nobody, fun _ h => decodeStatus_congr h level⟩

/-! `read_status` (R128). -/

theorem runAll_reportStatus {s : State} {b : Byte} {rest : List Byte}
    (ha : s.env.answers = b :: rest) (op : Option Instr) (p : List Micro) :
    runAll (s.continueAt op (.reportStatus :: p)) =
      (exchanged s rest [.readStatus b]).returns
        (.ok (.status (decodeStatus s.cfg.passwordActiveLevel b))) := by
  rw [runAll_of_microStep (s' := (exchanged s rest [.readStatus b]).returns
    (.ok (.status (decodeStatus s.cfg.passwordActiveLevel b)))), runAll_returns]
  rw [microStep_continueAt]
  simp [microExec, ha, State.readsStatus, exchanged, State.returns, State.continueAt]

/-- Settles O11: no protocol state is checked, and the sequence is the one status read. -/
theorem readStatusResult : Obligations.ReadStatusResult := by
  intro s b rest hi ha
  have hexec : exec .readStatus s =
      .next (advance ((unanswered s).continueAt (some .readStatus) [.reportStatus])) :=
    accept_idle hi _
  refine runsTo_of_advance hexec ?_ rfl
  rw [runAll_reportStatus (s := unanswered s) ha, returns_of_idle (by exact hi)]
  rfl

/-! A sequence that writes to the keyboard. Its byte goes where a parameter command awaits it, if one
does since a reset in the middle of an operation (70_reset_and_hazards.md R302). -/

theorem framed_ram {f : Footprint} {s t : State} (h : Framed f s t) {a : Nat}
    (ha : f.stored ≠ some a) (hk : f.kbdSent = true → parameterIndex s ≠ some a) :
    Memory.read t.env.ram a = Memory.read s.env.ram a := by
  obtain ⟨-, -, -, -, -, -, -, -, -, -, -, ram, -⟩ := h
  exact ram a ha hk

theorem framed_auxSent {f : Footprint} {s t : State} (h : Framed f s t) (ha : f.auxSent = false)
    (hk : f.kbdSent = true → s.env.pending ≠ some 0xD4) : t.env.auxSent = s.env.auxSent := by
  obtain ⟨-, -, -, -, -, -, -, -, -, -, -, -, -, aux, -⟩ := h
  exact aux ha hk

/-- Frames compose also with keyboard writes, while the parameter command awaited is the one that was
awaited before or none: only the RAM and the auxiliary device depend on it. -/
theorem framed_trans_of_awaited {f : Footprint} {s t u : State} (h : Framed f s t)
    (hp : t.env.pending = s.env.pending ∨ t.env.pending = none) (h' : Framed f t u) :
    Framed f s u := by
  have hindex : ∀ a, parameterIndex s ≠ some a → parameterIndex t ≠ some a := by
    rcases hp with hp | hp <;> simp [parameterIndex, hp]
  have hpending : s.env.pending ≠ some 0xD4 → t.env.pending ≠ some 0xD4 := by
    rcases hp with hp | hp <;> simp [hp]
  have hram : ∀ a, f.stored ≠ some a → (f.kbdSent = true → parameterIndex s ≠ some a) →
      Memory.read u.env.ram a = Memory.read s.env.ram a := fun a ha hk =>
    (framed_ram h' ha fun e => hindex a (hk e)).trans (framed_ram h ha hk)
  have haux : f.auxSent = false → (f.kbdSent = true → s.env.pending ≠ some 0xD4) →
      u.env.auxSent = s.env.auxSent := fun ha hk =>
    (framed_auxSent h' ha fun e => hpending (hk e)).trans (framed_auxSent h ha hk)
  clear hp hindex hpending
  unfold Framed at *
  simp_all

/-- The byte of a keyboard write stays within the frame wherever the awaited command takes it. -/
theorem framed_writesData_keyboard {f : Footprint} (hkbd : f.kbdSent = true) (s : State) (d : Byte) :
    Framed f s (s.writesData d) := by
  cases hp : s.env.pending with
  | none =>
    rw [State.writesData_keyboard hp]
    simp [Framed, hkbd]
  | some c =>
    by_cases hc : c = 0xD4
    · subst hc
      rw [State.writesData_auxiliary hp]
      simp [Framed, hkbd, hp]
    · rw [State.writesData_ram hp hc]
      simp only [Framed, parameterIndex, hp, if_neg hc, hkbd, ne_eq, Option.some.injEq, forall_const,
        implies_true, and_self, and_true, true_and]
      exact fun a _ ha => Memory.read_write_other _ _ (Ne.symm ha)

/-- The steps of `DevWriteKbd` and the return (41_port_handshake.md R142). -/
def isKeyboardStep : Micro → Bool
  | .pollInput | .writeData _ | .ret _ => true
  | _ => false

/-- The rest of the sequence only writes to the keyboard, nothing outside the footprint has changed since
`s₀`, and no other parameter command has come to await its byte. -/
structure WritesKeyboard (f : Footprint) (s₀ s : State) : Prop where
  framed : Framed f s₀ s
  awaited : s.env.pending = s₀.env.pending ∨ s.env.pending = none
  steps : (stepsLeft s).all isKeyboardStep = true

theorem WritesKeyboard.trans {f : Footprint} {s t u : State} (h : WritesKeyboard f s t)
    (h' : WritesKeyboard f t u) : WritesKeyboard f s u where
  framed := framed_trans_of_awaited h.framed h.awaited h'.framed
  awaited := h'.awaited.elim (fun e => e ▸ h.awaited) .inr
  steps := h'.steps

theorem microExec_writesKeyboard {f : Footprint} (hkbd : f.kbdSent = true) {op : Option Instr}
    {m : Micro} {p : List Micro} {s s' : State} (hu : s.ctl.upc = .running op (m :: p))
    (hm : isKeyboardStep m = true) (hp : p.all isKeyboardStep = true)
    (h : microExec op m p s = some s') : WritesKeyboard f s s' := by
  cases m
  case pollInput =>
    have hleft : (stepsLeft s).all isKeyboardStep = true := by
      rw [stepsLeft_running hu, List.all_cons, hm, hp]
      rfl
    simp only [microExec] at h
    split at h
    · cases h
    · split at h <;> cases h
      · exact ⟨by simp [Framed], .inl rfl, hleft⟩
      · exact ⟨by simp [Framed], .inl rfl, hp⟩
  case writeData d =>
    cases h
    exact ⟨framed_writesData_keyboard hkbd s d, .inr (State.writesData_env_pending s d), hp⟩
  case ret r =>
    cases h
    exact ⟨by simp [Framed], .inl rfl, rfl⟩
  all_goals cases hm

theorem microStep_writesKeyboard {f : Footprint} (hkbd : f.kbdSent = true) {s s' : State}
    (hs : (stepsLeft s).all isKeyboardStep = true) (h : microStep s = some s') :
    WritesKeyboard f s s' := by
  unfold microStep at h
  split at h
  · cases h
  · cases h
    exact ⟨by simp [Framed], .inl rfl, rfl⟩
  · rename_i hu
    rw [stepsLeft_running hu, List.all_cons, Bool.and_eq_true] at hs
    obtain ⟨hm, hp⟩ := hs
    exact microExec_writesKeyboard hkbd hu hm hp h

/-- So far as a step of the model goes with it, a sequence of keyboard writes is framed. -/
theorem advance_writesKeyboard {f : Footprint} (hkbd : f.kbdSent = true) {s₀ s : State}
    (h : WritesKeyboard f s₀ s) : WritesKeyboard f s₀ (advance s) :=
  advance_induction (fun _ _ h hm => h.trans (microStep_writesKeyboard hkbd h.steps hm)) h

theorem exec_sendToKeyboard_framed {b : Byte} {s t : State} (hi : Idle s)
    (h : exec (.sendToKeyboard b) s = .next t) : Framed (footprint (.sendToKeyboard b)) s t := by
  rcases exec_idle_cases hi h with rfl | ⟨e, rfl⟩ | ⟨k, prog, hst, rfl⟩
  · exact framed_refl _ _
  · simp [Framed]
  · obtain ⟨-, -, rfl, rfl⟩ := hst
    exact (advance_writesKeyboard rfl ⟨by simp [Framed], .inl rfl, rfl⟩).framed

/-! The other operations write within a footprint without keyboard writes. -/

theorem stepsWithin_ret (f : Footprint) (pending : Option Byte) (prog : List Micro) (r : Result) :
    stepsWithin f pending (prog ++ [.ret r]) = stepsWithin f pending prog := by
  induction prog generalizing pending with
  | nil => rfl
  | cons m p ih => rw [List.cons_append, stepsWithin, stepsWithin, ih]

/-- Every operation but `send_to_keyboard` writes within its footprint. -/
theorem controllerOp_within {i : Instr} (hc : isControllerOp i = true)
    (hkbd : (footprint i).kbdSent = false) {s : State} {k : Nat} {prog : List Micro}
    (h : Starts i s k prog) :
    k = 0 ∧ stepsWithin (footprint i) s.env.pending prog = true := by
  cases i
  case readStatus =>
    obtain ⟨rfl, rfl⟩ := h
    exact ⟨rfl, rfl⟩
  case startInit | setTranslation | selfTest | keyboardInterfaceTest | auxInterfaceTest | cpuReset |
      pollData =>
    obtain ⟨-, rfl, rfl⟩ := h
    exact ⟨rfl, rfl⟩
  case ramRead =>
    obtain ⟨-, -, rfl, rfl⟩ := h
    exact ⟨rfl, rfl⟩
  case ramWrite idx v =>
    obtain ⟨-, -, rfl, rfl⟩ := h
    have hindex : dataWithin (footprint (.ramWrite idx v)) (some (writeRamByte idx)) = true :=
      (if_neg (writeRamByte_ne_auxiliary idx)).trans (beq_self_eq_true _)
    rw [stepsWithin_ret]
    exact ⟨rfl, ctlCmdData_within (takesParameter_writeRamByte idx) hindex _ v⟩
  case enableDevices | enableDevicesAndInterrupts =>
    obtain ⟨-, rfl, d, -, rfl⟩ := h
    refine ⟨rfl, ?_⟩
    cases d <;> rfl
  case sendToAuxiliaryDevice b =>
    obtain ⟨-, -, rfl, rfl⟩ := h
    rw [stepsWithin_ret]
    exact ⟨rfl, ctlCmdData_within rfl rfl _ b⟩
  case disableDevices =>
    obtain ⟨-, rfl, rfl⟩ := h
    refine ⟨rfl, ?_⟩
    split <;> rfl
  case sendToKeyboard => cases hkbd
  all_goals cases hc

theorem footprint_kbdSent_of_ne_sendToKeyboard {i : Instr} (hc : isControllerOp i = true)
    (hi : ∀ b, i ≠ .sendToKeyboard b) : (footprint i).kbdSent = false := by
  cases i
  case sendToKeyboard b => exact absurd rfl (hi b)
  all_goals cases hc <;> rfl

/-- Settles O48: `send_to_keyboard` by its own induction, the others by their sequences. -/
theorem frameControllerOperations : Obligations.FrameControllerOperations := by
  intro i s t hc hi h
  by_cases hsend : ∃ b, i = .sendToKeyboard b
  case pos =>
    obtain ⟨b, rfl⟩ := hsend
    exact exec_sendToKeyboard_framed hi h
  case neg =>
    have hkbd := footprint_kbdSent_of_ne_sendToKeyboard hc fun b e => hsend ⟨b, e⟩
    exact exec_framed hi hkbd (fun _ _ => controllerOp_within hc hkbd) h

end Sys2Proof.Machine
end

section
/-! The port handshake (41_port_handshake.md): that no port is written while the input buffer is full (R136),
and a wait that never ends (R143). A micro-step makes no transaction or one, and keeps the guard either way
(`writesGuarded_of_silent`, `writesGuarded_of_txn`); a sequence is guarded when its parts are
(`stepsGuarded_append`). -/

namespace Sys2Proof.Machine

open Sys2Proof.Safety

/-! The guard on the transactions made. -/

/-- The last transaction is guarded by the one before it; `waited` stands for that one where there is none. -/
theorem traceGuarded_concat (waited : Bool) (l : List Txn) (x : Txn) :
    traceGuarded waited (l ++ [x]) =
      (traceGuarded waited l && (!isWriteTxn x || l.getLast?.elim waited sawInputEmpty)) := by
  induction l generalizing waited with
  | nil => simp [traceGuarded]
  | cons y l ih =>
    rw [List.cons_append, traceGuarded, traceGuarded, ih, Bool.and_assoc]
    cases l <;> simp [List.getLast?_cons]

theorem justWaited_eq_elim (l : List Txn) : justWaited l = l.getLast?.elim false sawInputEmpty := by
  unfold justWaited
  cases l.getLast? <;> rfl

theorem justWaited_concat (l : List Txn) (x : Txn) : justWaited (l ++ [x]) = sawInputEmpty x := by
  simp [justWaited]

/-! The guard on the steps still to do. -/

theorem stepsGuarded_cons {waited : Bool} {m : Micro} {p : List Micro} :
    stepsGuarded waited (m :: p) = true ↔
      (isWriteStep m = true → waited = true) ∧ stepsGuarded (decide (m = .pollInput)) p = true := by
  cases hm : isWriteStep m <;> simp [stepsGuarded, hm]

/-- A wait that has just ended does no harm. -/
theorem stepsGuarded_of_false {p : List Micro} (h : stepsGuarded false p = true) (waited : Bool) :
    stepsGuarded waited p = true := by
  cases p with
  | nil => rfl
  | cons m p =>
    obtain ⟨hwrite, hrest⟩ := stepsGuarded_cons.mp h
    exact stepsGuarded_cons.mpr ⟨fun hm => absurd (hwrite hm) nofun, hrest⟩

/-- A sequence that is guarded by itself may follow another. -/
theorem stepsGuarded_append {waited : Bool} {p q : List Micro} (hp : stepsGuarded waited p = true)
    (hq : stepsGuarded false q = true) : stepsGuarded waited (p ++ q) = true := by
  induction p generalizing waited with
  | nil => exact stepsGuarded_of_false hq waited
  | cons m p ih =>
    obtain ⟨hwrite, hrest⟩ := stepsGuarded_cons.mp hp
    exact stepsGuarded_cons.mpr ⟨hwrite, ih hrest⟩

/-! The guard over a micro-step. -/

/-- No transaction is made. -/
theorem writesGuarded_of_silent {s s' : State} (ht : traceGuarded false s.env.trace = true)
    (htrace : s'.env.trace = s.env.trace) (hsteps : stepsGuarded false (stepsLeft s') = true) :
    WritesGuarded s' :=
  ⟨htrace ▸ ht, stepsGuarded_of_false hsteps _⟩

/-- One transaction is made; if it is a write, a wait has just ended. -/
theorem writesGuarded_of_txn {s s' : State} {x : Txn} (ht : traceGuarded false s.env.trace = true)
    (htrace : s'.env.trace = s.env.trace ++ [x])
    (hx : isWriteTxn x = true → justWaited s.env.trace = true)
    (hsteps : stepsGuarded (sawInputEmpty x) (stepsLeft s') = true) : WritesGuarded s' := by
  refine ⟨?_, by rwa [htrace, justWaited_concat]⟩
  rw [htrace, traceGuarded_concat, ht, ← justWaited_eq_elim, Bool.true_and]
  cases hw : isWriteTxn x with
  | false => rfl
  | true => exact hx hw

/-- A command that starts is written behind a wait of its own (43_command_queue.md R212). -/
theorem startFront_writesGuarded {s : State} (ht : traceGuarded false s.env.trace = true)
    (op : Option Instr) {p : List Micro} (hp : stepsGuarded false p = true) :
    WritesGuarded (s.startFront op p) := by
  refine writesGuarded_of_silent ht (congrArg Env.trace (samePorts_startFront s op p).env) ?_
  unfold State.startFront
  split
  · exact hp
  · exact stepsGuarded_append (p := devWriteKbd _) rfl hp

/-- The write of a data byte, behind a wait that has just ended. -/
theorem writesData_writesGuarded {s : State} (ht : traceGuarded false s.env.trace = true)
    (hwaited : justWaited s.env.trace = true) (op : Option Instr) (d : Byte) {p : List Micro}
    (hp : stepsGuarded false p = true) : WritesGuarded ((s.writesData d).continueAt op p) :=
  writesGuarded_of_txn ht (State.writesData_env_trace s d) (fun _ => hwaited) hp

/-- `WaitInputEmpty` goes on only when its last status byte has bit 1 clear (R135); no other step needs to
wait for what comes after it. -/
theorem microExec_writesGuarded {op : Option Instr} {m : Micro} {p : List Micro} {s s' : State}
    (hu : s.ctl.upc = .running op (m :: p)) (hg : WritesGuarded s)
    (h : microExec op m p s = some s') : WritesGuarded s' := by
  obtain ⟨ht, hsteps⟩ := hg
  rw [stepsLeft_running hu, stepsGuarded_cons] at hsteps
  obtain ⟨hwrite, hp⟩ := hsteps
  cases m
  case pollInput =>
    simp only [microExec] at h
    split at h
    · cases h
    · split at h <;> cases h
      · refine writesGuarded_of_txn ht rfl nofun ?_
        rw [stepsLeft_running (op := op) (p := .pollInput :: p) (by exact hu)]
        exact stepsGuarded_cons.mpr ⟨nofun, hp⟩
      · rename_i b _ _ hb
        rw [decodeStatus_inputFull, Bool.not_eq_true] at hb
        refine writesGuarded_of_txn (x := .readStatus b) ht rfl nofun ?_
        rw [sawInputEmpty, hb]
        exact hp
  case pollStale | pollResponse | pollOwner =>
    have hp : stepsGuarded false p = true := hp
    simp only [microExec] at h
    split at h
    · cases h
    · split at h <;> cases h <;> refine writesGuarded_of_txn ht rfl nofun (stepsGuarded_of_false ?_ _)
      all_goals simp [stepsLeft, hu, stepsGuarded, isWriteStep, hp]
  case dropStale | takeResponse =>
    simp only [microExec] at h
    split at h <;> cases h
    exact writesGuarded_of_txn ht rfl nofun hp
  case reportStatus | takeOwned =>
    simp only [microExec] at h
    split at h <;> cases h
    exact writesGuarded_of_txn ht rfl nofun rfl
  case writeCommand c =>
    cases h
    exact writesGuarded_of_txn ht rfl (fun _ => hwrite rfl) hp
  case writeData | writeDataCb | writeDataSaved =>
    cases h
    exact writesData_writesGuarded ht (hwrite rfl) op _ hp
  case judgeTest =>
    simp only [microExec] at h
    split at h <;> cases h
    · exact writesGuarded_of_silent ht rfl hp
    · exact writesGuarded_of_silent ht rfl rfl
  case judgeSelfTest =>
    simp only [microExec] at h
    split at h <;> cases h <;> exact writesGuarded_of_silent ht rfl rfl
  case queueAdd c =>
    by_cases hfull : s.queueFull
    · rw [microExec_queueAdd_full hfull] at h
      cases h
      exact writesGuarded_of_silent ht rfl rfl
    · cases hin : s.q.inflight with
      | none =>
        rw [microExec_queueAdd_starts hfull hin] at h
        cases h
        exact startFront_writesGuarded (s := { s with q := { s.q with fifo := s.q.fifo ++ [c] } })
          ht op hp
      | some c₀ =>
        rw [microExec_queueAdd_behind hfull hin] at h
        cases h
        exact writesGuarded_of_silent ht rfl hp
  case finishCommand =>
    cases h
    exact startFront_writesGuarded ht op hp
  case returnResponse | decodeByte | ret =>
    cases h
    exact writesGuarded_of_silent ht rfl rfl
  all_goals
    cases h
    exact writesGuarded_of_silent ht rfl hp

theorem microStep_writesGuarded {s s' : State} (hg : WritesGuarded s) (h : microStep s = some s') :
    WritesGuarded s' := by
  unfold microStep at h
  split at h
  · cases h
  · obtain ⟨ht, -⟩ := hg
    cases h
    exact writesGuarded_of_silent ht rfl rfl
  · rename_i hu
    exact microExec_writesGuarded hu hg h

/-! Every sequence that is started waits before each of its writes. -/

theorem enableSequence_guarded (d : EnableDevice) (irq : Bool) :
    stepsGuarded false (enableSequence d irq) = true := by
  cases d <;> cases irq <;> rfl

theorem rowSteps_guarded (row : CheckerRow) : stepsGuarded false (rowSteps row) = true := by
  obtain ⟨write, after, ending⟩ := row
  cases write <;> cases ending <;> rfl

theorem markerSteps_guarded (c : Command) : stepsGuarded false (markerSteps c) = true := by
  unfold markerSteps
  split
  · split
    · rfl
    · split <;> rfl
  · rfl

theorem sessionAnswer_guarded (st : QueueStatus) : stepsGuarded false (sessionAnswer st) = true := by
  cases st with
  | commandInProgress | unexpectedData _ => rfl
  | commandFinished c =>
    rw [sessionAnswer, onFinished]
    split
    · exact stepsGuarded_append (markerSteps_guarded c) rfl
    all_goals rfl

theorem sessionReceive_guarded (s : State) (b : Byte) :
    stepsGuarded false (sessionReceive s b) = true := by
  unfold sessionReceive
  split
  · rfl
  split
  · rfl
  split
  · rfl
  split
  · split <;> rfl
  · exact stepsGuarded_append (rowSteps_guarded _) (sessionAnswer_guarded _)

theorem starts_guarded {i : Instr} {s : State} {k : Nat} {prog : List Micro} (h : Starts i s k prog) :
    stepsGuarded false prog = true := by
  cases i
  case kbdReceive | respAck | respResend | respEchoReply | respBatOk | respBatFail |
      respKeyDetectionOverrun =>
    obtain ⟨-, -, rfl⟩ := h
    exact sessionReceive_guarded s _
  case respSelfTestPassed | respInterfaceTestPassed | respClockLineLow | respClockLineHigh |
      respDataLineLow | respDataLineHigh => exact h.elim
  case enableDevices | enableDevicesAndInterrupts =>
    obtain ⟨-, -, d, -, rfl⟩ := h
    exact enableSequence_guarded d _
  case disableDevices =>
    obtain ⟨-, -, rfl⟩ := h
    split <;> rfl
  case readStatus | ctlReadCommandByte | ctlReadRam | ctlWriteCommandByte | ctlWriteRam | ctlDisableAux |
      ctlEnableAux | ctlAuxTest | ctlSelfTest | ctlKbdTest | ctlDisableKbd | ctlEnableKbd |
      ctlWriteToAux | ctlPulseOutput =>
    obtain ⟨-, rfl⟩ := h
    rfl
  case ramRead | ramWrite | sendToKeyboard | sendToAuxiliaryDevice | kbdSetTypematic =>
    obtain ⟨-, -, -, rfl⟩ := h
    rfl
  all_goals
    obtain ⟨-, -, rfl⟩ := h
    rfl

/-- Settles O54: every micro-step keeps the guard, and every sequence that is started is guarded by itself. -/
theorem writesStayGuarded : Obligations.WritesStayGuarded := by
  refine ⟨⟨rfl, rfl⟩, fun s t hguarded hstep => ?_⟩
  refine step_induction (P := WritesGuarded) ?resets (fun _ _ => microStep_writesGuarded)
    (fun _ _ _ h => h) ?answers ?starts ?receives hguarded hstep
  case resets => exact fun s ⟨ht, _⟩ => writesGuarded_of_silent ht rfl rfl
  case answers => exact fun s _ ⟨ht, _⟩ _ => writesGuarded_of_silent ht rfl rfl
  case starts =>
    exact fun s _ _ _ ⟨ht, _⟩ _ hst => writesGuarded_of_silent ht rfl (starts_guarded hst)
  case receives =>
    exact fun s b ⟨ht, _⟩ _ _ => writesGuarded_of_silent ht rfl (sessionReceive_guarded s b)

/-! A wait that never ends (R143). -/

/-- A status byte with bit 1 set leaves `WaitInputEmpty` where it is (R135). -/
theorem microStep_pollInput_busy {s : State} {b : Byte} {bs : List Byte}
    (ha : s.env.answers = b :: bs) (hb : b.getLsbD 1 = true) (op : Option Instr) (p : List Micro) :
    microStep (s.continueAt op (.pollInput :: p)) =
      some ((s.readsStatus b bs).continueAt op (.pollInput :: p)) := by
  rw [microStep_continueAt,
    microExec_statusRead (s := s.continueAt op (.pollInput :: p)) (.inl rfl) ha, hb]
  rfl

/-- A read that is not answered yet (log 5). -/
theorem microStep_pollInput_waits {s : State} (ha : s.env.answers = []) (op : Option Instr)
    (p : List Micro) : microStep (s.continueAt op (.pollInput :: p)) = none := by
  simp [microStep_continueAt, microExec, ha]

/-- A further step finds no answer either and changes nothing (log 5). -/
theorem step_pollInput_waits {s : State} (hr : s.host.resetLine = false) (ha : s.env.answers = [])
    (op : Option Instr) (p : List Micro) :
    step (s.continueAt op (.pollInput :: p)) = .next (s.continueAt op (.pollInput :: p)) := by
  rw [step_running (by exact hr) (State.continueAt_ctl_upc s op _),
    advance_of_blocked (microStep_pollInput_waits ha op p)]

/-- On status bytes that all have bit 1 set the wait reads every one of them and does not end. -/
theorem runAll_pollInput_busy {w : List Byte} (hw : ∀ b ∈ w, b.getLsbD 1 = true) {s : State}
    (ha : s.env.answers = w) (op : Option Instr) (p : List Micro) :
    runAll (s.continueAt op (.pollInput :: p)) =
      (exchanged s [] (statusReads w)).continueAt op (.pollInput :: p) := by
  induction w generalizing s with
  | nil =>
    have hself : exchanged s [] [] = s := ha ▸ exchanged_self s
    rw [runAll_of_blocked (microStep_pollInput_waits ha op p)]
    exact congrArg (State.continueAt · op _) hself.symm
  | cons b w ih =>
    obtain ⟨hb, hw⟩ := List.forall_mem_cons.mp hw
    rw [runAll_of_microStep (microStep_pollInput_busy ha hb op p), ih hw rfl]
    exact congrArg (State.continueAt · op _) (exchanged_exchanged s w [] [.readStatus b] _)

/-- Settles O28: the first wait of `InitSequence` reads all the bytes and stands there. -/
theorem waitWithoutEnd : Obligations.WaitWithoutEnd := by
  intro s w hi hstate ha hw
  have hexec : exec .startInit s = .next (advance ((unanswered s).continueAt (some .startInit)
      (initSequence ++ [.ret (.ok .unit)]))) := by
    rw [exec, execStartInit, accept_idle hi, inState_same (by exact hstate), launch]
  exact ⟨_, runsTo_of_advance hexec (runAll_pollInput_busy (s := unanswered s) hw ha _ _) rfl,
    hstate, nofun, rfl, rfl, rfl, fun hr =>
      step_pollInput_waits (s := exchanged (unanswered s) [] (statusReads w)) hr rfl _ _⟩

end Sys2Proof.Machine
end

section
/-! The transition relation of the controller FSM (42_controller_fsm.md R174). A micro-step adds no entry to
those of its sequence (`microExec_goesOnWithin`) and an entry is a transition of the table
(`microExec_entry`), so a step is progress of the operation it runs (`step_runsProgress`). -/

namespace Sys2Proof.Machine

open Sys2Proof.Safety

/-! The entries a sequence has still to make, and what a micro-step does to them. -/

/-- A sequence of the operation `op`, started in the protocol state `st`, makes at most one entry, and one
that the operation may make (R21). -/
def EntriesLegal (op : Option Instr) (st : ProtocolState) (p : List Micro) : Prop :=
  p.countP isEntry ≤ 1 ∧ ∀ m ∈ p, EntryLegal op st m

theorem entryLegal_of_not_entry {m : Micro} (hm : isEntry m = false) (op : Option Instr)
    (st : ProtocolState) : EntryLegal op st m := by
  cases m
  case enterDisabled | enterEnabled => cases hm
  all_goals trivial

/-- Only the entries of a sequence count. -/
theorem EntriesLegal.mono {op : Option Instr} {st : ProtocolState} {p q : List Micro}
    (h : EntriesLegal op st p) (hsub : (q.filter isEntry).Sublist (p.filter isEntry)) :
    EntriesLegal op st q := by
  obtain ⟨hcount, hlegal⟩ := h
  refine ⟨?_, fun m hm => ?_⟩
  · rw [List.countP_eq_length_filter] at hcount ⊢
    exact hsub.length_le.trans hcount
  · cases hentry : isEntry m with
    | false => exact entryLegal_of_not_entry hentry op st
    | true => exact hlegal m (List.mem_filter.mp (hsub.subset (List.mem_filter.mpr ⟨hm, hentry⟩))).1

theorem entriesLegal_of_none {p : List Micro} (h : p.filter isEntry = []) (op : Option Instr)
    (st : ProtocolState) : EntriesLegal op st p :=
  EntriesLegal.mono (p := []) ⟨Nat.zero_le 1, nofun⟩ (h ▸ List.nil_sublist _)

theorem entriesLegal_of_one {op : Option Instr} {st : ProtocolState} {p : List Micro} {m : Micro}
    (h : p.filter isEntry = [m]) (hm : EntryLegal op st m) : EntriesLegal op st p := by
  have hself : [m].filter isEntry = [m] := by rw [← h, List.filter_filter]; simp
  exact EntriesLegal.mono (p := [m]) ⟨List.countP_le_length, by simpa using hm⟩
    (by rw [h, hself])

/-- The rest of a sequence whose head is an entry makes none. -/
theorem EntriesLegal.no_further_entry {op : Option Instr} {st : ProtocolState} {m : Micro}
    {p : List Micro} (h : EntriesLegal op st (m :: p)) (hm : isEntry m = true) :
    p.filter isEntry = [] := by
  obtain ⟨hcount, -⟩ := h
  rw [List.countP_cons_of_pos hm] at hcount
  exact List.length_eq_zero_iff.mp (by rw [← List.countP_eq_length_filter]; omega)

/-- A micro-step goes on with the same operation, or ends it, and no entry is added to those of `p`. -/
structure GoesOnWithin (op : Option Instr) (p : List Micro) (s' : State) : Prop where
  operation : ∀ op' q, s'.ctl.upc = .running op' q → op' = op
  entries : ((stepsLeft s').filter isEntry).Sublist (p.filter isEntry)

theorem goesOnWithin_of_idle {s' : State} (hi : Idle s') (op : Option Instr) (p : List Micro) :
    GoesOnWithin op p s' :=
  ⟨fun _ _ hu => absurd (hi.symm.trans hu) nofun, by simp [stepsLeft, hi]⟩

theorem goesOnWithin_of_running {s' : State} {op : Option Instr} {p q : List Micro}
    (hu : s'.ctl.upc = .running op q) (hq : q.filter isEntry = p.filter isEntry) :
    GoesOnWithin op p s' := by
  refine ⟨fun op' q' hu' => ?_, ?_⟩
  · rw [hu] at hu'
    cases hu'
    rfl
  · rw [stepsLeft_running hu, hq]

theorem startFront_goesOnWithin (s : State) (op : Option Instr) (p : List Micro) :
    GoesOnWithin op p (s.startFront op p) := by
  unfold State.startFront
  split <;> exact goesOnWithin_of_running rfl rfl

theorem microExec_goesOnWithin {op : Option Instr} {m : Micro} {p : List Micro} {s s' : State}
    (hu : s.ctl.upc = .running op (m :: p)) (h : microExec op m p s = some s') :
    GoesOnWithin op p s' := by
  cases m
  case pollInput =>
    simp only [microExec] at h
    split at h
    · cases h
    · split at h <;> cases h
      · exact goesOnWithin_of_running hu rfl
      · exact goesOnWithin_of_running rfl rfl
  case pollResponse =>
    simp only [microExec] at h
    split at h
    · cases h
    · split at h <;> cases h
      · exact goesOnWithin_of_running rfl rfl
      · exact goesOnWithin_of_running hu rfl
  case pollStale =>
    simp only [microExec] at h
    split at h
    · cases h
    · split at h <;> cases h <;> exact goesOnWithin_of_running rfl rfl
  case pollOwner =>
    simp only [microExec] at h
    split at h
    · cases h
    · split at h <;> cases h
      · exact goesOnWithin_of_idle rfl op p
      · exact goesOnWithin_of_running rfl rfl
  case dropStale | takeResponse =>
    simp only [microExec] at h
    split at h <;> cases h
    exact goesOnWithin_of_running rfl rfl
  case reportStatus | takeOwned =>
    simp only [microExec] at h
    split at h <;> cases h
    exact goesOnWithin_of_idle rfl op p
  case judgeTest =>
    simp only [microExec] at h
    split at h <;> cases h
    · exact goesOnWithin_of_running rfl rfl
    · exact goesOnWithin_of_idle rfl op p
  case judgeSelfTest =>
    simp only [microExec] at h
    split at h <;> cases h <;> exact goesOnWithin_of_idle rfl op p
  case queueAdd c =>
    simp only [microExec] at h
    split at h
    · cases h; exact goesOnWithin_of_idle rfl op p
    · split at h <;> cases h
      · exact startFront_goesOnWithin _ op p
      · exact goesOnWithin_of_running rfl rfl
  case finishCommand => cases h; exact startFront_goesOnWithin s op p
  case returnResponse | decodeByte | ret => cases h; exact goesOnWithin_of_idle rfl op p
  all_goals cases h; exact goesOnWithin_of_running rfl rfl

/-! An entry is a transition of the table, and a step makes at most one. -/

/-- A transition is a matter of the mode before and after. -/
theorem transition_of_sameMode {i : Instr} {s s' t t' : State} (h : Transition i s t)
    (hs : s'.ctl.state = s.ctl.state) (ht : SameMode t t') : Transition i s' t' := by
  obtain ⟨hstate, hsel, hirq⟩ := ht
  unfold Transition at h ⊢
  rw [hs, hstate, hsel, hirq]
  exact h

theorem transition_leaves_init {i : Instr} {s t : State} (h : Transition i s t) :
    t.ctl.state ≠ .initController := by
  cases i
  case startInit => obtain ⟨-, ht, -⟩ := h; rw [ht]; nofun
  case enableDevices | enableDevicesAndInterrupts => obtain ⟨-, -, ht, -⟩ := h; rw [ht]; nofun
  case disableDevices => obtain ⟨-, ht, -⟩ := h; rw [ht]; nofun
  all_goals exact h.elim

theorem microExec_entry {op : Option Instr} {m : Micro} {p : List Micro} {s s' : State}
    (hm : isEntry m = true) (hl : EntryLegal op s.ctl.state m)
    (h : microExec op m p s = some s') : ∃ i, op = some i ∧ Transition i s s' := by
  cases m
  case enterDisabled =>
    cases h
    rcases hl with ⟨rfl, hstate⟩ | ⟨rfl, hstate⟩ <;> exact ⟨_, rfl, hstate, rfl, rfl, rfl⟩
  case enterEnabled d irq =>
    cases h
    obtain ⟨hstate, rfl⟩ := hl
    cases irq <;> exact ⟨_, rfl, hstate, selectorMask_ne_zero d, rfl, rfl, rfl⟩
  all_goals cases hm

/-- Where the operation `op` has come to from `s`: it has not entered a protocol state yet, or it has made its
transition and has no entry left to make. -/
inductive Progress (op : Option Instr) (s t : State) : Prop where
  | before (hmode : SameMode s t) (hleft : EntriesLegal op s.ctl.state (stepsLeft t))
  | entered {i : Instr} (hop : op = some i) (htrans : Transition i s t)
      (hleft : (stepsLeft t).filter isEntry = [])

theorem sameMode_trans {s t u : State} (h : SameMode s t) (h' : SameMode t u) : SameMode s u := by
  obtain ⟨hstate, hsel, hirq⟩ := h
  obtain ⟨hstate', hsel', hirq'⟩ := h'
  exact ⟨hstate'.trans hstate, hsel'.trans hsel, hirq'.trans hirq⟩

/-- Only the controller's registers count of the state it started from. -/
theorem Progress.of_ctl {op : Option Instr} {s s' t : State} (h : Progress op s t)
    (hc : s'.ctl = s.ctl) : Progress op s' t := by
  cases h with
  | before hmode hleft =>
    exact .before (by rw [SameMode, hc]; exact hmode) (by rw [hc]; exact hleft)
  | entered hop htrans hleft =>
    exact .entered hop (transition_of_sameMode htrans (by rw [hc]) ⟨rfl, rfl, rfl⟩) hleft

/-- The progress of the operation that runs, if one does. -/
structure RunsProgress (op : Option Instr) (s t : State) : Prop where
  operation : ∀ op' q, t.ctl.upc = .running op' q → op' = op
  progress : Progress op s t

theorem microExec_progress {op : Option Instr} {m : Micro} {p : List Micro} {s t t' : State}
    (hu : t.ctl.upc = .running op (m :: p)) (hprog : Progress op s t)
    (h : microExec op m p t = some t') : Progress op s t' := by
  have hsub := (microExec_goesOnWithin hu h).entries
  cases hprog with
  | before hmode hleft =>
    rw [stepsLeft_running hu] at hleft
    cases hm : isEntry m with
    | false =>
      exact .before (sameMode_trans hmode (microExec_sameMode hm h))
        (hleft.mono (by rwa [List.filter_cons_of_neg (by simp [hm])]))
    | true =>
      obtain ⟨-, hlegal⟩ := id hleft
      obtain ⟨hstate, -, -⟩ := hmode
      have hentry := hlegal m (.head p)
      rw [← hstate] at hentry
      obtain ⟨i, hop, htrans⟩ := microExec_entry hm hentry h
      exact .entered hop (transition_of_sameMode htrans hstate.symm ⟨rfl, rfl, rfl⟩)
        (List.sublist_nil.mp (hleft.no_further_entry hm ▸ hsub))
  | entered hop htrans hleft =>
    rw [stepsLeft_running hu] at hleft
    cases hm : isEntry m with
    | false =>
      rw [List.filter_cons_of_neg (by simp [hm])] at hleft
      exact .entered hop (transition_of_sameMode htrans rfl (microExec_sameMode hm h))
        (List.sublist_nil.mp (hleft ▸ hsub))
    | true => rw [List.filter_cons_of_pos hm] at hleft; cases hleft

theorem microStep_runsProgress {op : Option Instr} {s t t' : State} (hprog : RunsProgress op s t)
    (h : microStep t = some t') : RunsProgress op s t' := by
  obtain ⟨hop, hprog⟩ := hprog
  unfold microStep at h
  split at h
  · cases h
  · rename_i hu
    cases h
    refine ⟨nofun, ?_⟩
    cases hprog with
    | before hmode _ => exact .before hmode ⟨Nat.zero_le 1, nofun⟩
    | entered hop htrans _ => exact .entered hop htrans rfl
  · rename_i hu
    obtain rfl := hop _ _ hu
    exact ⟨(microExec_goesOnWithin hu h).operation, microExec_progress hu hprog h⟩

/-! The sequences that an instruction starts. -/

theorem rowSteps_entries (row : CheckerRow) : (rowSteps row).filter isEntry = [] := by
  obtain ⟨write, after, ending⟩ := row
  cases write <;> cases ending <;> rfl

theorem markerSteps_entries (c : Command) : (markerSteps c).filter isEntry = [] := by
  unfold markerSteps
  split
  · split
    · rfl
    · split <;> rfl
  · rfl

theorem sessionAnswer_entries (st : QueueStatus) : (sessionAnswer st).filter isEntry = [] := by
  cases st with
  | commandInProgress | unexpectedData _ => rfl
  | commandFinished c =>
    rw [sessionAnswer, onFinished]
    split
    · rw [List.filter_append, markerSteps_entries]
      rfl
    all_goals rfl

/-- The routing of a byte enters no protocol state (44_keyboard_session.md R251). -/
theorem sessionReceive_entries (s : State) (b : Byte) : (sessionReceive s b).filter isEntry = [] := by
  unfold sessionReceive
  split
  · rfl
  split
  · rfl
  split
  · rfl
  split
  · split <;> rfl
  · rw [receiveSteps, List.filter_append, rowSteps_entries, sessionAnswer_entries]
    rfl

theorem enableSequence_entries (d : EnableDevice) (irq : Bool) :
    (enableSequence d irq).filter isEntry = [.enterEnabled d irq] := by
  cases d <;> cases irq <;> rfl

/-- The four transition operations make their entry from the state they check, the others make none (R174). -/
theorem starts_entriesLegal {i : Instr} {s : State} {k : Nat} {prog : List Micro}
    (h : Starts i s k prog) : EntriesLegal (some i) s.ctl.state prog := by
  cases i
  case startInit =>
    obtain ⟨hstate, -, rfl⟩ := h
    exact entriesLegal_of_one (m := .enterDisabled) rfl (.inl ⟨rfl, hstate⟩)
  case disableDevices =>
    obtain ⟨hstate, -, rfl⟩ := h
    exact entriesLegal_of_one (m := .enterDisabled) (by split <;> rfl) (.inr ⟨rfl, hstate⟩)
  case enableDevices | enableDevicesAndInterrupts =>
    obtain ⟨hstate, -, d, rfl, rfl⟩ := h
    exact entriesLegal_of_one (enableSequence_entries d _) ⟨hstate, rfl⟩
  case kbdReceive | respAck | respResend | respEchoReply | respBatOk | respBatFail |
      respKeyDetectionOverrun =>
    obtain ⟨-, -, rfl⟩ := h
    exact entriesLegal_of_none (sessionReceive_entries s _) _ _
  case respSelfTestPassed | respInterfaceTestPassed | respClockLineLow | respClockLineHigh |
      respDataLineLow | respDataLineHigh => exact h.elim
  case readStatus | ctlReadCommandByte | ctlReadRam | ctlWriteCommandByte | ctlWriteRam | ctlDisableAux |
      ctlEnableAux | ctlAuxTest | ctlSelfTest | ctlKbdTest | ctlDisableKbd | ctlEnableKbd |
      ctlWriteToAux | ctlPulseOutput =>
    obtain ⟨-, rfl⟩ := h
    exact entriesLegal_of_none rfl _ _
  case ramRead | ramWrite | sendToKeyboard | sendToAuxiliaryDevice | kbdSetTypematic =>
    obtain ⟨-, -, -, rfl⟩ := h
    exact entriesLegal_of_none rfl _ _
  all_goals
    obtain ⟨-, -, rfl⟩ := h
    exact entriesLegal_of_none rfl _ _

/-! One step. -/

theorem advance_runsProgress {op : Option Instr} {s t : State} {p : List Micro}
    (hu : t.ctl.upc = .running op p) (hmode : SameMode s t)
    (hlegal : EntriesLegal op s.ctl.state p) : RunsProgress op s (advance t) := by
  refine advance_induction (fun _ _ => microStep_runsProgress) ⟨fun op' q hu' => ?_, ?_⟩
  · rw [hu] at hu'
    cases hu'
    rfl
  · exact .before hmode (by rwa [stepsLeft_running hu])

theorem runsProgress_of_idle {op : Option Instr} {s t : State} (hi : Idle t) (hmode : SameMode s t) :
    RunsProgress op s t :=
  ⟨fun _ _ hu => absurd (hi.symm.trans hu) nofun,
    .before hmode (by simp [stepsLeft, hi, EntriesLegal])⟩

/-- What a step of an idle block does with a word that is no instruction is no operation's. -/
theorem stepRejected_runsProgress {r : DecodeReject} {s t : State} (hi : Idle s)
    (h : stepRejected r s = .next t) : RunsProgress none s t := by
  cases r with
  | unknownOperation => cases h; exact runsProgress_of_idle rfl ⟨rfl, rfl, rfl⟩
  | plainKeyboardByte b =>
    rcases receiveByte_next hi h with ⟨e, rfl⟩ | ⟨-, rfl⟩
    · exact runsProgress_of_idle rfl ⟨rfl, rfl, rfl⟩
    · exact advance_runsProgress rfl ⟨rfl, rfl, rfl⟩
        (entriesLegal_of_none (sessionReceive_entries _ b) _ _)
  | plainResponse b => cases h; exact runsProgress_of_idle hi ⟨rfl, rfl, rfl⟩
  | notAControllerCommand b => cases h
  | notADeviceCommand b => cases h

theorem exec_runsProgress {i : Instr} {s t : State} (hi : Idle s) (h : exec i s = .next t) :
    RunsProgress (some i) s t := by
  rcases exec_idle_cases hi h with rfl | ⟨e, rfl⟩ | ⟨k, prog, hst, rfl⟩
  · exact runsProgress_of_idle hi ⟨rfl, rfl, rfl⟩
  · exact runsProgress_of_idle rfl ⟨rfl, rfl, rfl⟩
  · exact advance_runsProgress rfl ⟨rfl, rfl, rfl⟩ (starts_entriesLegal hst)

/-- Every step but a reset is progress of the operation it runs. -/
theorem step_runsProgress {s t : State} (hinv : TransitionInv s) (hr : s.host.resetLine = false)
    (h : step s = .next t) :
    ∃ op, (∀ i, op = some i → RunsInstr s i) ∧ RunsProgress op s t := by
  cases hu : s.ctl.upc with
  | running op p =>
    rw [step_running hr hu] at h
    cases h
    rw [TransitionInv, hu] at hinv
    refine ⟨op, fun i hop => ?_, advance_runsProgress hu ⟨rfl, rfl, rfl⟩ hinv⟩
    rw [RunsInstr, hu]
    exact hop
  | idle =>
    cases hp : s.host.presented with
    | nil =>
      rw [step_of_nothing_presented hr hu hp] at h
      cases h
      exact ⟨none, nofun, runsProgress_of_idle hu ⟨rfl, rfl, rfl⟩⟩
    | cons w ws =>
      cases hd : decode s.cfg w with
      | ok i =>
        rw [step_of_presented hr hu hp hd] at h
        obtain ⟨hop, hprog⟩ := exec_runsProgress (by exact hu) h
        refine ⟨some i, ?_, hop, ?_⟩
        · rintro _ ⟨⟩
          rw [RunsInstr, hu]
          exact ⟨w, ws, hp, hd⟩
        · exact hprog.of_ctl rfl
      | error r =>
        rw [step_of_rejected hr hu hp hd] at h
        obtain ⟨hop, hprog⟩ := stepRejected_runsProgress (by exact hu) h
        exact ⟨none, nofun, hop, hprog.of_ctl rfl⟩

theorem RunsProgress.transitionInv {op : Option Instr} {s t : State} (h : RunsProgress op s t) :
    TransitionInv t := by
  obtain ⟨hop, hprog⟩ := h
  unfold TransitionInv
  split
  · trivial
  · rename_i op' p hu
    obtain rfl := hop _ _ hu
    cases hprog with
    | before hmode hleft =>
      obtain ⟨hstate, -, -⟩ := hmode
      rw [stepsLeft_running hu, ← hstate] at hleft
      exact hleft
    | entered _ _ hleft =>
      rw [stepsLeft_running hu] at hleft
      exact entriesLegal_of_none hleft _ _

/-- Settles O56: a step is progress of the operation it runs, which makes at most one entry, and that entry is
its transition. -/
theorem controllerTransitions : Obligations.ControllerTransitions := by
  intro s t hinv hr hstep
  obtain ⟨op, hruns, hprog⟩ := step_runsProgress hinv hr hstep
  refine ⟨hprog.transitionInv, ?_⟩
  cases hprog.progress with
  | before hmode _ =>
    obtain ⟨hstate, -, -⟩ := id hmode
    exact ⟨.inl hmode, fun ht => hstate ▸ ht⟩
  | entered hop htrans _ =>
    exact ⟨.inr ⟨_, hruns _ hop, htrans⟩, fun ht => absurd ht (transition_leaves_init htrans)⟩

end Sys2Proof.Machine
end

section
/-! The operations of the controller FSM (42_controller_fsm.md), each to its end on the answers that let it
end (R151 to R171), and the idempotent cycle (R172). An operation is accepted and starts its sequence
(`operation_accepted`); the sequence is run by the lemmas of its parts and returns
(`runsTo_of_sequence`). -/

namespace Sys2Proof.Machine

open Sys2Proof.Safety

/-- Settles O8: one row after the other. -/
theorem interfaceTestMapTable : Obligations.InterfaceTestMapTable := by
  refine ⟨rfl, rfl, rfl, rfl, rfl, fun r hr => ?_⟩
  unfold interfaceTestMap
  split
  case h_6 => rfl
  all_goals omega

/-- Only 0x00 is a pass (R155). -/
theorem interfaceTestMap_fails {r : Byte} (hr : r ≠ 0x00) : ∃ e, interfaceTestMap r = some e := by
  unfold interfaceTestMap
  split
  case h_1 h0 => exact absurd (BitVec.eq_of_toNat_eq h0) hr
  all_goals exact ⟨_, rfl⟩

/-! Exchanges after one another. -/

@[simp] theorem exchange_seq_none (x : Exchange) : x.seq Exchange.none = x := by
  simp [Exchange.seq, Exchange.none]

@[simp] theorem exchange_none_seq (x : Exchange) : Exchange.none.seq x = x := rfl

@[simp] theorem exchange_seq_answers (x y : Exchange) : (x.seq y).answers = x.answers ++ y.answers := rfl

@[simp] theorem exchange_seq_trace (x y : Exchange) : (x.seq y).trace = x.trace ++ y.trace := rfl

@[simp] theorem commanded_commanded (s : State) (r r' : List Byte) (t t' : List Txn) :
    commanded (commanded s r t) r' t' = commanded s r' (t ++ t') := by
  simp [commanded]

/-! From the acceptance of an operation to its result. -/

/-- An idle block in the state of an operation goes on behind the state check (R150). -/
theorem operation_accepted {st : ProtocolState} {s : State} (hi : Idle s) (hst : s.ctl.state = st)
    (k : State → Host.Outcome State Fault Refusal) :
    (accept s fun s => inState st s k) = k (unanswered s) :=
  (accept_idle hi _).trans (inState_same (by exact hst) k)

/-- A sequence that ends with a result ends the operation with it. -/
theorem runsTo_of_sequence {i : Instr} {prog : List Micro} {s u : State} {r : Result}
    (he : exec i s = .next (advance ((unanswered s).continueAt (some i) prog))) (hu : Idle u)
    (hrun : runAll ((unanswered s).continueAt (some i) prog) = u.returns r) :
    RunsTo i s (answered u r) :=
  runsTo_of_advance he (hrun.trans (returns_of_idle hu r)) rfl

/-! The operations on the command byte and on the controller (R151 to R160). -/

/-- Settles O12: the sequence is `InitSequence`. -/
theorem startInitResult : Obligations.StartInitResult := by
  intro s cb x rest hi hst hx ha
  exact runsTo_of_sequence (operation_accepted hi hst _) hi
    ((runAll_initSequence hx (s := unanswered s) ha _ _).trans (runAll_ret ..))

/-- Bit 6 is `en` and every other bit as it was (R153). -/
theorem getLsbD_withTranslate (cb : Byte) (en : Bool) {k : Nat} (hk : k < 8) :
    (withTranslate cb en).getLsbD k = if k = 6 then en else cb.getLsbD k := by
  have hmask : ∀ k < 8, (0xBF : Byte).getLsbD k = decide (k ≠ 6) := by decide
  have hbit : ∀ en, ∀ k < 8, (if en then 0x40 else 0x00 : Byte).getLsbD k = (en && decide (k = 6)) := by
    decide
  rw [withTranslate, BitVec.getLsbD_or, BitVec.getLsbD_and, hmask k hk, hbit en k hk]
  by_cases h6 : k = 6 <;> simp [h6]

/-- Settles O13: the sequence is a read-modify-write of the command byte, and the byte it writes is the one
with those bits. -/
theorem setTranslationResult : Obligations.SetTranslationResult := by
  intro s en old new x rest hi hst hbits hx ha
  have hnew : withTranslate old en = new := BitVec.eq_of_getLsbD_eq fun k hk => by
    rw [getLsbD_withTranslate old en hk, hbits k hk]
  refine runsTo_of_sequence (operation_accepted hi hst _) hi ?_
  rw [List.append_assoc, List.append_assoc]
  refine (runAll_update hx (s := unanswered s) ha _ _ (.cbSetTranslate en) fun s' q hcb => ?_).trans
    (runAll_ret ..)
  rw [runAll_of_microStep rfl, ← hnew, ← hcb]
  rfl

/-- The assignment of R154 step 1. -/
theorem runAll_savedFromResp (s : State) (op : Option Instr) (p : List Micro) :
    runAll (s.continueAt op (.savedFromResp :: p)) =
      runAll (({ s with ctl := { s.ctl with saved := s.ctl.resp } }).continueAt op p) :=
  runAll_of_microStep rfl

/-- Settles O14: the command byte is saved before the test and written back before its response is judged. -/
theorem selfTestResult : Obligations.SelfTestResult := by
  intro s cb r x₁ x₂ x₃ rest hi hst h₁ h₂ h₃ ha
  have hsteps : selfTestSteps = ctlCmdResp 0x20 ++ (.savedFromResp ::
      (ctlCmdResp 0xAA ++ (ctlCmd 0x60 ++ [.writeDataSaved, .judgeSelfTest]))) := by
    simp [selfTestSteps]
  refine runsTo_of_sequence (operation_accepted hi hst _) hi ?_
  rw [hsteps, runAll_response h₁ rfl (rest := x₂.answers ++ (x₃.answers ++ rest)) (by simpa using ha),
    runAll_savedFromResp, runAll_response h₂ rfl (rest := x₃.answers ++ rest) rfl]
  refine (runAll_writeSaved (x := x₃) (rest := rest) h₃ rfl _ _).trans
    ((runAll_judgeSelfTest ..).trans ?_)
  simp [commanded, ramStored, State.returns]

/-- The command byte of an interface test (R156, R157). -/
def testByte : TestedInterface → Byte
  | .keyboard => 0xAB
  | .auxiliary => 0xA9

theorem testSteps_eq (which : TestedInterface) :
    testSteps which = ctlCmdResp (testByte which) ++ [.judgeTest which] := by
  cases which <;> rfl

theorem takesParameter_testByte (which : TestedInterface) : takesParameter (testByte which) = false := by
  cases which <;> rfl

/-- An interface test on any response. -/
theorem runAll_interfaceTest {which : TestedInterface} {r : Byte} {x : Exchange}
    (hx : ResponseExchange (testByte which) r x) {s : State} {rest : List Byte}
    (ha : s.env.answers = x.answers ++ rest) (op : Option Instr) :
    runAll (s.continueAt op (testSteps which ++ [.ret (.ok .unit)])) =
      ({ commanded s rest x.trace with ctl := { s.ctl with resp := r } }).returns
        (testResult which r) := by
  rw [testSteps_eq, List.append_assoc, runAll_response hx (takesParameter_testByte which) ha]
  exact runAll_judgeTest_ret _ op which

/-- Settles O15: the two operations are the test of their interface and a return. -/
theorem interfaceTestResults : Obligations.InterfaceTestResults := by
  intro s r x rest hi hst ha
  exact ⟨fun hx => runsTo_of_sequence (operation_accepted hi hst _) hi
      (runAll_interfaceTest (which := .keyboard) hx (s := unanswered s) ha _),
    fun hx => runsTo_of_sequence (operation_accepted hi hst _) hi
      (runAll_interfaceTest (which := .auxiliary) hx (s := unanswered s) ha _)⟩

/-- The index of R96 as a number. -/
theorem ofNat_readRam (idx : BitVec 5) : BitVec.ofNat 8 (0x20 + idx.toNat) = readRamByte idx := by
  simp only [readRamByte]
  bv_omega

/-- Settles O16: the index 0 is turned away, and every other is in the command byte sent. -/
theorem ramReadWriteResults : Obligations.RamReadWriteResults := by
  intro s idx x rest hi hst hidx ha
  refine ⟨fun r hx => ?read, fun v hx => ?write⟩
  case read =>
    rw [ofNat_readRam] at hx
    exact runsTo_of_sequence ((operation_accepted hi hst _).trans (if_neg hidx)) hi
      ((runAll_response hx (takesParameter_readRamByte idx) (s := unanswered s) ha _ _).trans
        (runAll_returnResponse ..))
  case write =>
    rw [ofNat_writeRam] at hx
    rw [← ramIndexOf_writeRamByte]
    exact runsTo_of_sequence ((operation_accepted hi hst _).trans (if_neg hidx)) hi
      ((runAll_parameter hx (takesParameter_writeRamByte idx) (writeRamByte_ne_auxiliary idx)
        (s := unanswered s) ha _ _).trans (runAll_ret ..))

/-- Settles O17: the sequence is the plain command 0xFE and a return. -/
theorem cpuResetResult : Obligations.CpuResetResult := by
  intro s x rest hi hst hx ha
  exact runsTo_of_sequence (operation_accepted hi hst _) hi
    ((runAll_plain hx rfl (s := unanswered s) ha _ _).trans (runAll_ret ..))

/-! The enabling transitions (R161 to R167). -/

theorem selectorOf_selectorMask (d : EnableDevice) : selectorOf (selectorMask d) = some d := by
  cases d <;> rfl

theorem enableOperation_accepted {s : State} (hi : Idle s) (hst : s.ctl.state = .devicesDisabled)
    (i : Instr) (d : EnableDevice) (irq : Bool) :
    enableOperation i (selectorMask d) irq s =
      .next (advance ((unanswered s).continueAt (some i) (enableSequence d irq))) := by
  rw [enableOperation, operation_accepted hi hst, selectorOf_selectorMask]
  rfl

/-- The tests of the selected devices, all passed (R161 steps 1 and 2). -/
theorem runAll_testsPassed {d : EnableDevice} {x₁ x₂ : Exchange}
    (h₁ : Only (hasKeyboard d) (ResponseExchange 0xAB 0x00) x₁)
    (h₂ : Only (hasAuxiliary d) (ResponseExchange 0xA9 0x00) x₂) {s : State} {rest : List Byte}
    (ha : s.env.answers = (x₁.seq x₂).answers ++ rest) (op : Option Instr) (p : List Micro) :
    runAll (s.continueAt op ((if hasKeyboard d then testSteps .keyboard else []) ++
        ((if hasAuxiliary d then testSteps .auxiliary else []) ++ p))) =
      runAll (({ commanded s rest (x₁.seq x₂).trace with
        ctl := { s.ctl with resp := 0x00 } }).continueAt op p) := by
  cases d with
  | keyboard =>
    obtain rfl : x₂ = Exchange.none := h₂
    rw [exchange_seq_none] at ha ⊢
    exact runAll_testPassed (which := .keyboard) h₁ ha op p
  | auxiliary =>
    obtain rfl : x₁ = Exchange.none := h₁
    exact runAll_testPassed (which := .auxiliary) h₂ ha op p
  | both =>
    rw [exchange_seq_answers, List.append_assoc] at ha
    refine (runAll_testPassed (which := .keyboard) h₁ ha op _).trans
      ((runAll_testPassed (which := .auxiliary) h₂ (rest := rest) rfl op p).trans ?_)
    simp [commanded]

/-- The enable commands of the selected devices (R161 steps 3 and 4). -/
theorem runAll_enableCommands {d : EnableDevice} {x₁ x₂ : Exchange}
    (h₁ : Only (hasKeyboard d) (PlainExchange 0xAE) x₁)
    (h₂ : Only (hasAuxiliary d) (PlainExchange 0xA8) x₂) {s : State} {rest : List Byte}
    (ha : s.env.answers = (x₁.seq x₂).answers ++ rest) (op : Option Instr) (p : List Micro) :
    runAll (s.continueAt op ((if hasKeyboard d then ctlCmd 0xAE else []) ++
        ((if hasAuxiliary d then ctlCmd 0xA8 else []) ++ p))) =
      runAll ((commanded s rest (x₁.seq x₂).trace).continueAt op p) := by
  cases d with
  | keyboard =>
    obtain rfl : x₂ = Exchange.none := h₂
    rw [exchange_seq_none] at ha ⊢
    exact runAll_plain h₁ rfl ha op p
  | auxiliary =>
    obtain rfl : x₁ = Exchange.none := h₁
    exact runAll_plain h₂ rfl ha op p
  | both =>
    rw [exchange_seq_answers, List.append_assoc] at ha
    refine (runAll_plain h₁ rfl ha op _).trans ((runAll_plain h₂ rfl (rest := rest) rfl op p).trans ?_)
    simp

/-- What follows the tests and the enable commands: the interrupt enables, where asked for, and the entry
(R161 steps 5 and 6). -/
def enableTail (d : EnableDevice) (irq : Bool) : List Micro :=
  (if irq then readCbToCb ++ [.cbSetInterrupts d] ++ writeCb else []) ++
    [.enterEnabled d irq, .ret (.ok .unit)]

theorem enableSequence_eq (d : EnableDevice) (irq : Bool) :
    enableSequence d irq = (if hasKeyboard d then testSteps .keyboard else []) ++
      ((if hasAuxiliary d then testSteps .auxiliary else []) ++
        ((if hasKeyboard d then ctlCmd 0xAE else []) ++
          ((if hasAuxiliary d then ctlCmd 0xA8 else []) ++ enableTail d irq))) := by
  simp only [enableSequence, enableTail, List.append_assoc]

/-- An enabling transition whose tests pass comes to its interrupt enables and its entry. -/
theorem runAll_enableSequence {d : EnableDevice} {x₁ x₂ x₃ x₄ : Exchange}
    (h₁ : Only (hasKeyboard d) (ResponseExchange 0xAB 0x00) x₁)
    (h₂ : Only (hasAuxiliary d) (ResponseExchange 0xA9 0x00) x₂)
    (h₃ : Only (hasKeyboard d) (PlainExchange 0xAE) x₃)
    (h₄ : Only (hasAuxiliary d) (PlainExchange 0xA8) x₄) {s : State} {rest : List Byte}
    (ha : s.env.answers = (((x₁.seq x₂).seq x₃).seq x₄).answers ++ rest) (op : Option Instr)
    (irq : Bool) :
    runAll (s.continueAt op (enableSequence d irq)) =
      runAll (({ commanded s rest (((x₁.seq x₂).seq x₃).seq x₄).trace with
        ctl := { s.ctl with resp := 0x00 } }).continueAt op (enableTail d irq)) := by
  rw [enableSequence_eq,
    runAll_testsPassed h₁ h₂ (rest := (x₃.seq x₄).answers ++ rest) (by simpa using ha),
    runAll_enableCommands h₃ h₄ (rest := rest) rfl]
  simp [commanded]

/-- Settles O18: the tests, the enable commands, the entry. -/
theorem enableDevicesResult : Obligations.EnableDevicesResult := by
  intro s d cb x rest hi hst hx ha
  obtain ⟨x₁, x₂, x₃, x₄, x₅, h₁, h₂, h₃, h₄, h₅, rfl⟩ := hx
  obtain rfl : x₅ = Exchange.none := h₅
  rw [exchange_seq_none] at ha ⊢
  refine runsTo_of_sequence (enableOperation_accepted hi hst _ d false) hi ?_
  rw [runAll_enableSequence (s := unanswered s) h₁ h₂ h₃ h₄ ha]
  exact (runAll_enterEnabled _ _ d false _).trans (runAll_ret ..)

/-- The interrupt-enable bits: bit 0 keyboard, bit 1 auxiliary device (R161 step 5). -/
theorem getLsbD_interruptBits : ∀ (d : EnableDevice) (k : Nat), k < 8 →
    (interruptBits d).getLsbD k = ((k == 0 && hasKeyboard d) || (k == 1 && hasAuxiliary d))
  | .keyboard | .auxiliary | .both => by decide

/-- Settles O19: the tests, the enable commands, the read-modify-write of the command byte, the entry. -/
theorem enableDevicesAndInterruptsResult : Obligations.EnableDevicesAndInterruptsResult := by
  intro s d cb new x rest hi hst hx ha hbits
  have hnew : cb ||| interruptBits d = new := BitVec.eq_of_getLsbD_eq fun k hk => by
    rw [BitVec.getLsbD_or, getLsbD_interruptBits d k hk, hbits k hk, Bool.or_assoc]
  obtain ⟨x₁, x₂, x₃, x₄, x₅, h₁, h₂, h₃, h₄, h₅, rfl⟩ := hx
  have hupdate : UpdateExchange cb new x₅ := hnew ▸ h₅
  refine runsTo_of_sequence (enableOperation_accepted hi hst _ d true) hi ?_
  rw [runAll_enableSequence (s := unanswered s) (rest := x₅.answers ++ rest) h₁ h₂ h₃ h₄
    (by simpa using ha)]
  have htail : enableTail d true = readCbToCb ++ (.cbSetInterrupts d :: (writeCb ++
      [.enterEnabled d true, .ret (.ok .unit)])) := by simp [enableTail]
  rw [htail]
  refine (runAll_update hupdate (rest := rest) rfl _ _ (.cbSetInterrupts d) fun s' q hcb => ?_).trans
    ((runAll_enterEnabled _ _ d true _).trans ((runAll_ret ..).trans ?_))
  · rw [runAll_of_microStep rfl, ← hnew, ← hcb]
    rfl
  · simp [commanded, ramStored, State.returns]

/-- The first selected test that fails ends the transition (R161 steps 1 and 2, R173). -/
theorem runAll_enableSequence_fails {d : EnableDevice} {which : TestedInterface} {r : Byte}
    {x : Exchange} (hx : FailedTestExchange d which r x) {e : InterfaceFault}
    (he : interfaceTestMap r = some e) {s : State} {rest : List Byte}
    (ha : s.env.answers = x.answers ++ rest) (op : Option Instr) (irq : Bool) :
    runAll (s.continueAt op (enableSequence d irq)) =
      ({ commanded s rest x.trace with ctl := { s.ctl with resp := r } }).returns
        (.err (.interfaceError which r e)) := by
  rw [enableSequence_eq]
  cases which with
  | keyboard =>
    obtain ⟨hkbd, hx⟩ := hx
    rw [if_pos hkbd]
    exact runAll_testFailed (which := .keyboard) hx he ha op _
  | auxiliary =>
    obtain ⟨haux, x₁, x₂, h₁, h₂, rfl⟩ := hx
    rw [if_pos haux]
    cases hkbd : hasKeyboard d with
    | false =>
      rw [hkbd] at h₁
      obtain rfl : x₁ = Exchange.none := h₁
      exact runAll_testFailed (which := .auxiliary) h₂ he ha op _
    | true =>
      rw [hkbd] at h₁
      rw [exchange_seq_answers, List.append_assoc] at ha
      refine (runAll_testPassed (which := .keyboard) h₁ ha op _).trans
        ((runAll_testFailed (which := .auxiliary) h₂ he (rest := rest) rfl op _).trans ?_)
      simp [commanded, State.returns]

/-- Settles O20: a non-zero response is no pass, and the test that gave it ends either operation. -/
theorem enableDevicesFailure : Obligations.EnableDevicesFailure := by
  intro s d which r x rest i hop hi hst hr hx ha
  obtain ⟨e, he⟩ := interfaceTestMap_fails hr
  obtain ⟨irq, hexec⟩ : ∃ irq, exec i s =
      .next (advance ((unanswered s).continueAt (some i) (enableSequence d irq))) := by
    rcases hop with rfl | rfl <;> exact ⟨_, enableOperation_accepted hi hst _ d _⟩
  have hresult : testResult which r = .err (.interfaceError which r e) := by rw [testResult, he]
  rw [hresult]
  exact runsTo_of_sequence hexec hi (runAll_enableSequence_fails hx he (s := unanswered s) ha _ irq)

/-! The operations in `EnabledDevices` (R168 to R171). -/

/-- Settles O21: with its device enabled each operation is the write and a return. -/
theorem sendResults : Obligations.SendResults := by
  intro s b hi hst
  refine ⟨fun w rest hsel hw ha => ?keyboard, fun x rest hsel hx ha => ?auxiliary⟩
  case keyboard =>
    refine runsTo_of_sequence ((operation_accepted hi hst _).trans (if_pos hsel))
      ((congrArg Ctl.upc (keyboardWritten_ctl s w rest b)).trans hi)
      ((runAll_devWriteKbd hw (s := unanswered s) ha _ b _).trans ((runAll_ret ..).trans ?_))
    rw [keyboardWritten_unanswered]
    rfl
  case auxiliary =>
    exact runsTo_of_sequence ((operation_accepted hi hst _).trans (if_pos hsel)) hi
      ((runAll_auxiliary hx (s := unanswered s) ha _ _).trans (runAll_ret ..))

/-- The status read of `poll_data` (R170 step 1). -/
theorem microStep_pollOwner {s : State} {b : Byte} {rest : List Byte}
    (ha : s.env.answers = b :: rest) (op : Option Instr) (p : List Micro) :
    microStep (s.continueAt op (.pollOwner :: p)) =
      some (match statusOwner b with
        | none => (exchanged s rest [.readStatus b]).returns (.ok .noData)
        | some o => (exchanged s rest [.readStatus b]).continueAt op (.takeOwned o :: p)) := by
  rw [microStep_continueAt,
    microExec_statusRead (s := s.continueAt op (.pollOwner :: p)) (.inr (.inr (.inr rfl))) ha]
  cases statusOwner b <;> rfl

/-- With no byte there `poll_data` ends. -/
theorem runAll_pollOwner_nobody {s : State} {b : Byte} {rest : List Byte}
    (ha : s.env.answers = b :: rest) (hb : statusOwner b = none) (op : Option Instr) (p : List Micro) :
    runAll (s.continueAt op (.pollOwner :: p)) =
      (exchanged s rest [.readStatus b]).returns (.ok .noData) := by
  rw [runAll_of_microStep (microStep_pollOwner ha op p), hb, runAll_returns]

/-- A byte that is there is read next, whoever owns it (R170 step 2). -/
theorem runAll_pollOwner_somebody {s : State} {b d : Byte} {rest : List Byte} {o : Owner}
    (ha : s.env.answers = b :: d :: rest) (hb : statusOwner b = some o) (op : Option Instr)
    (p : List Micro) :
    runAll (s.continueAt op (.pollOwner :: p)) =
      (exchanged s rest [.readStatus b, .readData d]).returns (.ok (.data o d)) := by
  rw [runAll_of_microStep (microStep_pollOwner ha op p), hb]
  exact (runAll_takeOwned rfl op o p).trans (by rw [exchanged_exchanged]; rfl)

/-- Settles O22: the owner that bits 5 and 0 name decides between the two. -/
theorem pollDataResult : Obligations.PollDataResult := by
  intro s b hi hst
  have hexec := operation_accepted hi hst fun s => launch .pollData [.pollOwner] s
  refine ⟨fun rest h5 h0 ha => ?nobody, fun d rest h5 h0 ha => ?controller,
    fun d rest h5 ha => ?auxiliary⟩
  case nobody =>
    exact runsTo_of_sequence hexec hi
      (runAll_pollOwner_nobody (s := unanswered s) ha (statusOwner_nobody h5 h0) _ _)
  case controller =>
    exact runsTo_of_sequence hexec hi
      (runAll_pollOwner_somebody (s := unanswered s) ha (statusOwner_controller h5 h0) _ _)
  case auxiliary =>
    exact runsTo_of_sequence hexec hi
      (runAll_pollOwner_somebody (s := unanswered s) ha (statusOwner_auxiliary h5) _ _)

theorem disableDevices_accepted {s : State} (hi : Idle s) (hst : s.ctl.state = .enabledDevices) :
    exec .disableDevices s = .next (advance ((unanswered s).continueAt (some .disableDevices)
      (if s.ctl.irq then initSequence ++ [.ret (.ok .unit)]
        else ctlCmd 0xAD ++ ctlCmd 0xA7 ++ [.enterDisabled, .ret (.ok .unit)]))) := by
  refine (operation_accepted hi hst _).trans ?_
  rw [unanswered_ctl]
  cases s.ctl.irq <;> rfl

/-- Settles O23: `ctl.irq` decides between the two sequences, and both end with the entry. -/
theorem disableDevicesResult : Obligations.DisableDevicesResult := by
  intro s rest hi hst
  have hexec := disableDevices_accepted hi hst
  refine ⟨fun x₁ x₂ hirq h₁ h₂ ha => ?plain, fun cb x hirq hx ha => ?init⟩
  case plain =>
    refine runsTo_of_sequence hexec hi ?_
    rw [hirq, if_neg Bool.false_ne_true, List.append_assoc,
      runAll_plain h₁ rfl (s := unanswered s) (rest := x₂.answers ++ rest) (by simpa using ha),
      runAll_plain h₂ rfl (rest := rest) rfl, runAll_enterDisabled, runAll_ret, commanded_commanded]
    rfl
  case init =>
    refine runsTo_of_sequence hexec hi ?_
    rw [hirq, if_pos rfl, runAll_initSequence hx (s := unanswered s) ha, runAll_ret]
    rfl

/-! The idempotent cycle (R172): on whatever answers, an operation that has returned `Ok` has made the last
steps of its sequence. -/

/-- The steps that lead to an entry: port transactions, assignments to the holding registers, and tests. None
of them returns `Ok`. -/
def leadsToEntry : Micro → Bool
  | .pollInput | .writeCommand _ | .writeData _ | .writeDataCb | .pollStale | .dropStale
  | .pollResponse _ | .takeResponse _ | .cbFromResp | .cbClearInterrupts | .cbSetInterrupts _
  | .judgeTest _ => true
  | _ => false

/-- A step that leads to an entry goes on to what follows it, perhaps after more such steps, with no result
yet, or ends the operation with an error. -/
inductive GoesOnOrFails (op : Option Instr) (p : List Micro) (s s' : State) : Prop where
  | goesOn {l : List Micro} (hl : l.all leadsToEntry = true)
      (hu : s'.ctl.upc = .running op (l ++ p)) (hres : s'.host.result = s.host.result)
  | fails {e : Err} (hu : Idle s') (hres : s'.host.result = some (.err e))

theorem microExec_goesOnOrFails {op : Option Instr} {m : Micro} {p : List Micro} {s s' : State}
    (hm : leadsToEntry m = true) (hu : s.ctl.upc = .running op (m :: p))
    (h : microExec op m p s = some s') : GoesOnOrFails op p s s' := by
  cases m
  case pollInput =>
    simp only [microExec] at h
    split at h
    · cases h
    · split at h <;> cases h
      · exact .goesOn (l := [.pollInput]) rfl hu rfl
      · exact .goesOn (l := []) rfl rfl rfl
  case pollResponse c =>
    simp only [microExec] at h
    split at h
    · cases h
    · split at h <;> cases h
      · exact .goesOn (l := []) rfl rfl rfl
      · exact .goesOn (l := [.pollResponse c]) rfl hu rfl
  case pollStale =>
    simp only [microExec] at h
    split at h
    · cases h
    · split at h <;> cases h
      · exact .goesOn (l := []) rfl rfl rfl
      · exact .goesOn (l := [.dropStale]) rfl rfl rfl
  case dropStale | takeResponse =>
    simp only [microExec] at h
    split at h <;> cases h
    exact .goesOn (l := []) rfl rfl rfl
  case judgeTest =>
    simp only [microExec] at h
    split at h <;> cases h
    · exact .goesOn (l := []) rfl rfl rfl
    · exact .fails rfl rfl
  case writeData | writeDataCb => cases h; exact .goesOn (l := []) rfl rfl (by simp)
  case writeCommand | cbFromResp | cbClearInterrupts | cbSetInterrupts =>
    cases h
    exact .goesOn (l := []) rfl rfl rfl
  all_goals cases hm

theorem continueAt_of_running {s : State} {op : Option Instr} {p : List Micro}
    (hu : s.ctl.upc = .running op p) : s.continueAt op p = s := by
  rw [State.continueAt, ← hu]

/-- A sequence that ends with `Ok` has come through all the steps that lead to its entry. -/
theorem runAll_comes_to {op : Option Instr} {l p : List Micro} {s : State} {v : OkValue}
    (hl : l.all leadsToEntry = true) (hu : s.ctl.upc = .running op (l ++ p))
    (hres : s.host.result = none) (hok : (runAll s).host.result = some (.ok v)) :
    ∃ u : State, runAll s = runAll (u.continueAt op p) := by
  induction hn : s.measure using Nat.strong_induction_on generalizing l s with
  | _ n ih =>
    cases l with
    | nil => exact ⟨s, congrArg runAll (continueAt_of_running hu).symm⟩
    | cons m l =>
      obtain ⟨hm, hl⟩ := Bool.and_eq_true_iff.mp hl
      cases hs : microStep s with
      | none =>
        rw [runAll_of_blocked hs, hres] at hok
        cases hok
      | some s' =>
        rw [runAll_of_microStep hs] at hok ⊢
        cases microExec_goesOnOrFails hm hu ((microStep_running hu).symm.trans hs) with
        | goesOn hl' hu' hres' =>
          exact ih s'.measure (hn ▸ measure_microStep hs)
            (List.all_append.trans (Bool.and_eq_true_iff.mpr ⟨hl', hl⟩))
            (hu'.trans (congrArg _ (List.append_assoc ..).symm)) (hres'.trans hres) hok rfl
        | fails hidle herr =>
          rw [runAll_of_blocked (microStep_idle hidle), herr] at hok
          cases hok

/-- The sequence is `p` behind steps that lead to its entry. -/
def LeadsTo (prog p : List Micro) : Prop :=
  ∃ l, l.all leadsToEntry = true ∧ prog = l ++ p

/-- An operation that ends with `Ok` has come to the end `p` of its sequence. -/
theorem runsTo_comes_to {i : Instr} {prog p : List Micro} {s t : State} {v : OkValue}
    (he : exec i s = .next (advance ((unanswered s).continueAt (some i) prog)))
    (hprog : LeadsTo prog p) (h : RunsTo i s t) (hok : t.host.result = some (.ok v)) :
    ∃ u : State, t = runAll (u.continueAt (some i) p) := by
  obtain ⟨l, hl, rfl⟩ := hprog
  obtain ⟨⟨t', ht', rfl⟩, -⟩ := h
  rw [he] at ht'
  cases ht'
  rw [runAll_advance] at hok ⊢
  exact runAll_comes_to hl rfl rfl hok

theorem enableSequence_leadsTo (d : EnableDevice) (irq : Bool) :
    LeadsTo (enableSequence d irq) [.enterEnabled d irq, .ret (.ok .unit)] :=
  ⟨_, by cases d <;> cases irq <;> rfl, rfl⟩

theorem initSequence_leadsTo :
    LeadsTo (initSequence ++ [.ret (.ok .unit)]) [.enterDisabled, .ret (.ok .unit)] :=
  ⟨ctlCmd 0xAD ++ ctlCmd 0xA7 ++ readCbToCb ++ [.cbClearInterrupts] ++ writeCb, rfl, rfl⟩

theorem disableCommands_leadTo :
    LeadsTo (ctlCmd 0xAD ++ ctlCmd 0xA7 ++ [.enterDisabled, .ret (.ok .unit)])
      [.enterDisabled, .ret (.ok .unit)] :=
  ⟨_, rfl, rfl⟩

/-- An enabling transition that has returned `Ok` has made its entry (R161 step 6). -/
theorem enabled_of_ok {d : EnableDevice} {s t : State} {v : OkValue} (hi : Idle s)
    (hst : s.ctl.state = .devicesDisabled)
    (h : RunsTo (.enableDevicesAndInterrupts (selectorMask d)) s t)
    (hok : t.host.result = some (.ok v)) :
    Idle t ∧ t.ctl.state = .enabledDevices ∧ t.ctl.irq = true ∧ t.ctl.sel = selectorMask d := by
  obtain ⟨u, rfl⟩ := runsTo_comes_to (i := .enableDevicesAndInterrupts (selectorMask d))
    (enableOperation_accepted hi hst _ d true) (enableSequence_leadsTo d true) h hok
  rw [runAll_enterEnabled, runAll_ret]
  exact ⟨rfl, rfl, rfl, rfl⟩

/-- `disable_devices` that has returned `Ok` has made its entry (R171). -/
theorem disabled_of_ok {s t : State} {v : OkValue} (hi : Idle s)
    (hst : s.ctl.state = .enabledDevices) (h : RunsTo .disableDevices s t)
    (hok : t.host.result = some (.ok v)) : Idle t ∧ t.ctl.state = .devicesDisabled := by
  obtain ⟨u, rfl⟩ := runsTo_comes_to (disableDevices_accepted hi hst)
    (p := [.enterDisabled, .ret (.ok .unit)])
    (by split; exacts [initSequence_leadsTo, disableCommands_leadTo]) h hok
  rw [runAll_enterDisabled, runAll_ret]
  exact ⟨rfl, rfl⟩

/-- The mode alone says which host operations are legal (60_exceptions.md R288). -/
theorem exposed_congr {s t : State} (hstate : s.ctl.state = t.ctl.state)
    (hsel : s.ctl.sel = t.ctl.sel) (i : Instr) : Exposed s i ↔ Exposed t i := by
  rw [Exposed, Exposed, hstate, hsel]

/-- Settles O59: each `Ok` stands for the entry made, so the mode after the third run is that of the first. -/
theorem idempotentCycle : Obligations.IdempotentCycle := by
  intro s t₁ t₂ t₃ a b c hi hst h₁ hok₁ h₂ hok₂ h₃ hok₃
  obtain ⟨hi₁, hstate₁, hirq₁, hsel₁⟩ := enabled_of_ok (s := fed s a) hi hst h₁ hok₁
  obtain ⟨hi₂, hstate₂⟩ := disabled_of_ok (s := fed t₁ b) hi₁ hstate₁ h₂ hok₂
  obtain ⟨-, hstate₃, hirq₃, hsel₃⟩ := enabled_of_ok (s := fed t₂ c) hi₂ hstate₂ h₃ hok₃
  exact ⟨hstate₃, hirq₃, hsel₃, hstate₁, hirq₁, hsel₁,
    exposed_congr (hstate₃.trans hstate₁.symm) (hsel₃.trans hsel₁.symm)⟩

end Sys2Proof.Machine
end

section
/-! The command queue (43_command_queue.md): the checker's table (R196 to R207), the full queue (R193), a
device command behind the one in flight (R191), and a byte of keyboard data by itself, with a command in
flight (R194, R208, R210) and on an idle queue (R195). -/

namespace Sys2Proof.Machine

open Sys2Proof.Safety

/-! The checker's table. -/

/-- The three classes of byte at an ACK-waiting cursor (R196, R209, R210). -/
theorem ackRows_classes {confirm : Byte} (hne : confirm ≠ 0xFE) (c : Command) (b again : Byte)
    (confirmed : CheckerRow) :
    ackRows c confirm confirm again confirmed = confirmed ∧
      ackRows c 0xFE confirm again confirmed = ⟨some again, c, .inProgress⟩ ∧
      (b ≠ confirm → b ≠ 0xFE → ackRows c b confirm again confirmed = ⟨none, c, .unexpected⟩) :=
  ⟨if_pos rfl, (if_neg hne.symm).trans (if_pos rfl), fun hb hresend =>
    (if_neg hb).trans (if_neg hresend)⟩

/-- Settles O40: at each pair of variant and cursor the checker is `ackRows` or takes every byte. -/
theorem checkerTable : Obligations.CheckerTable := by
  intro c b
  obtain ⟨v, cmd, data, cur, r1, r2⟩ := c
  refine ⟨?ackResponse, ?echo, ?twoBytes, ?data, ?singleAck, ?response, ?status⟩
  case ackResponse => rintro rfl rfl; exact ackRows_classes (by decide) ..
  case echo => rintro rfl rfl; exact ackRows_classes (by decide) ..
  case twoBytes =>
    rintro rfl
    refine ⟨?_, ?_, ?_⟩ <;> rintro rfl
    · exact ackRows_classes (by decide) ..
    · rfl
    · rfl
  case data =>
    rintro rfl
    constructor <;> rintro rfl <;> exact ackRows_classes (by decide) ..
  case singleAck =>
    rintro rfl
    constructor <;> rintro rfl
    · exact ackRows_classes (by decide) ..
    · rfl
  case response =>
    rintro rfl
    refine ⟨?_, ?_, ?_⟩ <;> rintro rfl
    · exact ackRows_classes (by decide) ..
    · exact ackRows_classes (by decide) ..
    · rfl
  case status =>
    intro row
    refine ⟨?_, ?_, ?_⟩ <;> intro h <;> simp [rowStatus, h]

/-! The full queue. -/

theorem exec_issuedCommand {i : Instr} {v : Variant} {cmd : Byte} {payload : Option Byte}
    (h : issuedCommand i = some (v, cmd, payload)) (s : State) :
    exec i s = issue i (!operandIllegal i) v cmd payload s := by
  cases i
  case kbdDisable | kbdSetDefaults | kbdEnable | kbdSetLeds | kbdSetTypematic | kbdReadId | kbdEcho =>
    cases h; rfl
  all_goals cases h

/-- Behind the open gate the capacity is checked before `q_add` (44_keyboard_session.md R239). -/
theorem issue_full {s : State} (hi : Idle s) (hg : SessionOpen s) (hf : s.queueFull) (i : Instr)
    (v : Variant) (cmd : Byte) (payload : Option Byte) :
    issue i true v cmd payload s = .next (answered s (.err .queueFull)) := by
  rw [issue, accept_idle hi, sessionGate_open (s := unanswered s) hg, if_pos rfl,
    if_pos (by exact hf), fail_of_idle (s := unanswered s) hi, answered_unanswered]

theorem scancodeSetLegal_of_set {n : Byte} (h : n = 1 ∨ n = 2 ∨ n = 3) : scancodeSetLegal n = true := by
  rcases h with rfl | rfl | rfl <;> rfl

theorem scancodeSlots_pos (s : State) : 0 < scancodeSlots s := by
  unfold scancodeSlots
  split <;> decide

/-- The pair of `kbd_select_scancode_set` is refused where it does not fit (44_keyboard_session.md R247). -/
theorem execKbdSelectScancodeSet_full {s : State} {n : Byte} (hn : n = 1 ∨ n = 2 ∨ n = 3)
    (hi : Idle s) (hg : SessionOpen s)
    (hf : s.cfg.queueCapacity - s.q.fifo.length < scancodeSlots s) :
    execKbdSelectScancodeSet n s = .next (answered s (.err .queueFull)) := by
  rw [execKbdSelectScancodeSet, accept_idle hi, sessionGate_open (s := unanswered s) hg,
    if_pos (scancodeSetLegal_of_set hn), if_pos (by exact hf),
    fail_of_idle (s := unanswered s) hi, answered_unanswered]

/-- Settles O32: the capacity check of R239 and of R247. -/
theorem queueFullRefused : Obligations.QueueFullRefused := by
  refine ⟨?single, ?pair⟩
  case single =>
    intro i ⟨v, cmd, payload⟩ s hcmd hlegal hi hg hf
    rw [exec_issuedCommand hcmd, hlegal]
    exact issue_full hi hg hf i v cmd payload
  case pair =>
    intro n s hn hi hg hf
    have hneeds : s.cfg.queueCapacity < s.q.fifo.length + scancodeSlots s := hf
    have hpos := scancodeSlots_pos s
    exact execKbdSelectScancodeSet_full hn hi hg (by omega)

/-! A device command with a command in flight, and on a full queue. -/

/-- The `q_add` of a new command behind the one in flight (R191). -/
theorem runAll_queueAddNew_behind {s : State} {c₀ : Command} (hi : Idle s)
    (hin : s.q.inflight = some c₀) (hf : s.q.fifo.length < s.cfg.queueCapacity) (op : Option Instr)
    (v : Variant) (cmd : Byte) (payload : Option Byte) :
    runAll (((unanswered s).usesFree 1).continueAt op
        [.queueAdd (newCommand v cmd payload s.freeCount), .ret (.ok .unit)]) =
      answered { s with
        q := { fifo := s.q.fifo ++ [newCommand v cmd payload s.freeCount], inflight := some c₀ }
        freeCount := s.freeCount + 3 } (.ok .unit) := by
  rw [runAll_queueAdd_behind (s := (unanswered s).usesFree 1) hin (by exact hf.ne), runAll_ret,
    returns_of_idle (by exact hi)]
  rfl

/-- The `q_add` of a new command on a full queue hands its record back (R191, R193). -/
theorem runAll_queueAddNew_full {s : State} (hi : Idle s)
    (hf : s.q.fifo.length = s.cfg.queueCapacity) (op : Option Instr) (v : Variant) (cmd : Byte)
    (payload : Option Byte) :
    runAll (((unanswered s).usesFree 1).continueAt op
        [.queueAdd (newCommand v cmd payload s.freeCount), .ret (.ok .unit)]) =
      answered { s with freeCount := s.freeCount + 3 }
        (.err (.queueFullCommand (newCommand v cmd payload s.freeCount))) := by
  rw [runAll_queueAdd_full (s := (unanswered s).usesFree 1) hf, returns_of_idle (by exact hi)]
  rfl

/-- Settles O35: the record is the new command in both clauses; `q_add` appends it or hands it back. -/
theorem deviceCommandWaitsOrIsHandedBack : Obligations.DeviceCommandWaitsOrIsHandedBack := by
  intro i v cmd payload s hcmd hi hg
  have hstart := (exec_deviceCommand hcmd s).trans (queueAddNew_open hi hg i v cmd payload)
  refine ⟨newCommand v cmd payload s.freeCount, rfl, rfl, fun d => newCommand_data, rfl,
    fun c₀ hin hf => ?waits, fun hf => ?handedBack⟩
  case waits =>
    exact runsTo_of_advance hstart (runAll_queueAddNew_behind hi hin hf (some i) v cmd payload) rfl
  case handedBack =>
    exact runsTo_of_advance hstart (runAll_queueAddNew_full hi hf (some i) v cmd payload) rfl

/-! A byte of keyboard data reaches the session's routing, by its instruction or by a step. -/

/-- The decoder gives a byte of keyboard data the row of that byte (30_encoding.md R102). -/
theorem keyboardByte_of_decoded {cfg : Config} {b : Byte} {i : Instr}
    (h : decodeKeyboardByte cfg b = .ok i) : keyboardByte cfg i = some b := by
  unfold decodeKeyboardByte at h
  split at h
  case isTrue hb => cases h; rw [hb]; rfl
  case isFalse =>
    split at h <;> cases h
    all_goals
      rename_i hb
      exact congrArg some (BitVec.eq_of_toNat_eq hb.symm)

/-- The step that takes a byte of keyboard data routes it, whether it has a row of its own or none (R105). -/
theorem step_keyboardByte {s : State} {b : Byte} {ws : List Presented}
    (hr : s.host.resetLine = false) (hi : Idle s) (hp : s.host.presented = .keyboardByte b :: ws) :
    ∃ op, step s = receiveByte op b { s with host := { s.host with presented := ws } } := by
  cases hd : decodeKeyboardByte s.cfg b with
  | ok i =>
    exact ⟨some i, (step_of_presented hr hi hp hd).trans
      (exec_keyboardByte (keyboardByte_of_decoded hd))⟩
  | error r =>
    obtain rfl := decodeKeyboardByte_error hd
    exact ⟨none, step_of_rejected hr hi hp hd⟩

theorem runsTo_of_routing {i : Instr} {b : Byte} {s u : State} (hb : keyboardByte s.cfg i = some b)
    (hi : Idle s) (hg : SessionOpen s)
    (hu : ∀ op, runAll ((unanswered s).continueAt op (sessionReceive s b)) = u) : RunsTo i s u :=
  runsTo_of_advance ((exec_keyboardByte hb).trans (receiveByte_open hi hg)) (hu _) rfl

theorem stepsTo_of_routing {s s' u : State} {b : Byte} {ws : List Presented}
    (hr : s.host.resetLine = false) (hp : s.host.presented = .keyboardByte b :: ws)
    (hs' : s' = { s with host := { s.host with presented := ws } }) (hi : Idle s)
    (hg : SessionOpen s)
    (hu : ∀ op, runAll ((unanswered s').continueAt op (sessionReceive s' b)) = u) : StepsTo s u := by
  subst hs'
  obtain ⟨op, hstep⟩ := step_keyboardByte hr hi hp
  exact stepsTo_of_advance (hstep.trans (receiveByte_open hi hg)) (hu op) rfl

/-! What the routing does with a byte that is no sentinel (44_keyboard_session.md R251). -/

theorem isSentinel_eq_false {cfg : Config} {b : Byte} :
    isSentinel cfg b = false ↔ b ≠ cfg.overrunCode ∧ b ≠ byteBatFail ∧ b ≠ byteBatOk := by
  simp [isSentinel, byteBatFail, byteBatOk, and_assoc]

/-- A byte without a row of its own is no sentinel. -/
theorem isSentinel_of_plain {cfg : Config} {b : Byte}
    (h : b ∉ [cfg.overrunCode, 0xFA, 0xFE, 0xEE, 0xAA, 0xFC]) : isSentinel cfg b = false := by
  simp only [List.mem_cons, List.not_mem_nil, or_false, not_or] at h
  obtain ⟨hoverrun, -, -, -, hok, hfail⟩ := h
  exact isSentinel_eq_false.mpr ⟨hoverrun, hfail, hok⟩

/-- A byte that is no sentinel is the queue's where a command is in flight (R235). -/
theorem sessionReceive_inFlight {s : State} {b : Byte} {c : Command}
    (hb : isSentinel s.cfg b = false) (hin : s.q.inflight = some c) :
    sessionReceive s b = rowSteps (checkerRow c b) ++ sessionAnswer (rowStatus (checkerRow c b) b) := by
  obtain ⟨hoverrun, hfail, hok⟩ := isSentinel_eq_false.mp hb
  rw [sessionReceive, if_neg hoverrun, if_neg hfail, if_neg hok, hin]
  rfl

/-- On an idle queue it is the session's (R234). -/
theorem sessionReceive_idleQueue {s : State} {b : Byte} (hb : isSentinel s.cfg b = false)
    (hin : s.q.inflight = none) :
    sessionReceive s b = if b = byteResend then [.ret (.ok .noEvent)] else [.decodeByte b] := by
  obtain ⟨hoverrun, hfail, hok⟩ := isSentinel_eq_false.mp hb
  rw [sessionReceive, if_neg hoverrun, if_neg hfail, if_neg hok, hin]

/-- `ks.marker` after the steps that write it is `markerAfter` (R241). -/
theorem runAll_markerSteps (s : State) (op : Option Instr) (c : Command) (p : List Micro) :
    runAll (s.continueAt op (markerSteps c ++ p)) =
      runAll (({ s with ks := { s.ks with marker := markerAfter s.ks.marker c } }).continueAt op p) := by
  by_cases hv : c.variant = .ackResponse
  · simp only [markerSteps, markerAfter, hv, true_and]
    split_ifs
    · exact runAll_setMarker ..
    · exact runAll_setMarker ..
    · rfl
  · have hnone : markerSteps c = [] := by
      unfold markerSteps
      split
      · contradiction
      · rfl
    rw [hnone, markerAfter, if_neg fun h => hv h.1, if_neg fun h => hv h.1]
    rfl

/-- What the session makes of a status, from a block that is idle but for it (R235, R236). -/
theorem runAll_sessionAnswer {s : State} (hi : Idle s) (op : Option Instr) (st : QueueStatus) :
    runAll (s.continueAt op (sessionAnswer st)) = concluded s st := by
  cases st with
  | commandInProgress => exact (runAll_ret ..).trans (returns_of_idle hi _)
  | unexpectedData b => exact (runAll_decodeByte ..).trans (returns_of_idle (by exact hi) _)
  | commandFinished c =>
    obtain ⟨v, cmd, data, cur, r1, r2⟩ := c
    cases v with
    | ackResponse =>
      exact (runAll_markerSteps ..).trans ((runAll_ret ..).trans (returns_of_idle (by exact hi) _))
    | sendCommandAndDataSingleAck =>
      exact (runAll_decodeByte ..).trans (returns_of_idle (by exact hi) _)
    | echo | ackResponseWithReturnTwoBytes | sendCommandAndData
    | sendCommandAndDataAndReceiveResponse => exact (runAll_ret ..).trans (returns_of_idle hi _)

theorem rowDone_unanswered (s : State) (row : CheckerRow) (w rest : List Byte) :
    rowDone (unanswered s) row w rest = unanswered (rowDone s row w rest) := by
  have hwritten : rowWritten (unanswered s) row w rest = unanswered (rowWritten s row w rest) := by
    unfold rowWritten
    rw [show rowBytes (unanswered s) row = rowBytes s row from rfl]
    split
    · rfl
    · exact keyboardWritten_unanswered ..
  rw [rowDone, hwritten]
  rfl

theorem rowDone_ctl (s : State) (row : CheckerRow) (w rest : List Byte) :
    (rowDone s row w rest).ctl = s.ctl := by
  unfold rowDone rowWritten
  split
  · rfl
  · exact keyboardWritten_ctl ..

theorem concluded_unanswered (s : State) (st : QueueStatus) :
    concluded (unanswered s) st = concluded s st := by
  cases st with
  | commandInProgress | unexpectedData b => rfl
  | commandFinished c =>
    obtain ⟨v, cmd, data, cur, r1, r2⟩ := c
    cases v <;> rfl

/-- With a command in flight the checker's row is applied and its status concluded (R194, R235). -/
theorem runAll_receive_inFlight {s : State} {b : Byte} {c : Command} {w rest : List Byte}
    (hi : Idle s) (hin : s.q.inflight = some c) (hb : isSentinel s.cfg b = false)
    (ha : RowAnswers s (checkerRow c b) w rest) (op : Option Instr) :
    runAll ((unanswered s).continueAt op (sessionReceive s b)) =
      concluded (rowDone s (checkerRow c b) w rest) (rowStatus (checkerRow c b) b) := by
  have hidle : Idle (unanswered (rowDone s (checkerRow c b) w rest)) := by
    simpa [Idle, rowDone_ctl] using hi
  rw [sessionReceive_inFlight hb hin, runAll_rowSteps (s := unanswered s) ha, rowDone_unanswered,
    runAll_sessionAnswer hidle, concluded_unanswered]

/-- On an idle queue RESEND is swallowed and every other byte is decoded (R195, R234). -/
theorem runAll_receive_idleQueue {s : State} {b : Byte} (hi : Idle s) (hin : s.q.inflight = none)
    (hb : isSentinel s.cfg b = false) (op : Option Instr) :
    runAll ((unanswered s).continueAt op (sessionReceive s b)) =
      if b = byteResend then answered s (.ok .noEvent) else decoded s b := by
  rw [sessionReceive_idleQueue hb hin]
  split
  · exact (runAll_ret ..).trans (returns_of_idle (by exact hi) _)
  · exact (runAll_decodeByte ..).trans (returns_of_idle (by exact hi) _)

/-- Settles O41: behind the open gate the routing applies the row, behind the closed one nothing runs. -/
theorem receiveWithCommandInFlight : Obligations.ReceiveWithCommandInFlight := by
  refine ⟨?instruction, ?plain, ?instructionClosed, ?stepClosed⟩
  case instruction =>
    intro i b c s w rest hk hi hg hin hb ha
    exact runsTo_of_routing hk hi hg (runAll_receive_inFlight hi hin hb ha)
  case plain =>
    intro b ws c s w rest hr hp hb hi hg hin ha
    exact stepsTo_of_routing hr hp rfl hi hg
      (runAll_receive_inFlight (by exact hi) hin (isSentinel_of_plain hb) ha)
  case instructionClosed =>
    intro i b s hk hi hg
    exact (exec_keyboardByte hk).trans (receiveByte_closed hi hg)
  case stepClosed =>
    intro b ws s hr hp hi hg
    obtain ⟨op, hstep⟩ := step_keyboardByte hr hi hp
    exact hstep.trans (receiveByte_closed hi hg)

/-- Settles O42: no row of the checker, so the status is `UnexpectedData`; of the session's bytes only
RESEND is not decoded, and it has a row of its own. -/
theorem receiveOnIdleQueue : Obligations.ReceiveOnIdleQueue := by
  refine ⟨fun _ _ => rfl, fun s hi hg hin => ⟨?instruction, ?plain⟩⟩
  case instruction =>
    intro i b hk hb
    exact runsTo_of_routing hk hi hg (runAll_receive_idleQueue hi hin hb)
  case plain =>
    intro b ws hr hp hb
    have hresend : b ≠ 0xFE := by rintro rfl; simp at hb
    refine stepsTo_of_routing hr hp rfl hi hg fun op => ?_
    have hrun := runAll_receive_idleQueue (s := { s with host := { s.host with presented := ws } })
      hi hin (isSentinel_of_plain hb) op
    exact hrun.trans (if_neg hresend)

end Sys2Proof.Machine
end

section
/-! The keyboard session (44_keyboard_session.md): issuing commands on an idle queue and behind a command in
flight (R239 to R249), the sentinels (R232, R233), `kbd_receive` (R234 to R236), and what the session's
operations, the device commands and the bytes of keyboard data leave unchanged. -/

namespace Sys2Proof.Machine

open Sys2Proof.Safety

/-! Issuing commands. -/

/-- Behind the open gate, with a free slot, a legal command reaches `q_add` (R239). -/
theorem issue_open {s : State} (hi : Idle s) (hg : SessionOpen s) (hf : ¬ s.queueFull) (i : Instr)
    (v : Variant) (cmd : Byte) (payload : Option Byte) :
    issue i true v cmd payload s =
      .next (advance (((unanswered s).usesFree 1).continueAt (some i)
        [.queueAdd (newCommand v cmd payload s.freeCount), .ret (.ok .unit)])) := by
  rw [issue, accept_idle hi, sessionGate_open (s := unanswered s) hg, if_pos rfl, if_neg (by exact hf)]
  rfl

theorem exec_issuedCommand_open {i : Instr} {v : Variant} {cmd : Byte} {payload : Option Byte}
    {s : State} (hcmd : issuedCommand i = some (v, cmd, payload)) (hlegal : operandIllegal i = false)
    (hi : Idle s) (hg : SessionOpen s) (hf : ¬ s.queueFull) :
    exec i s =
      .next (advance (((unanswered s).usesFree 1).continueAt (some i)
        [.queueAdd (newCommand v cmd payload s.freeCount), .ret (.ok .unit)])) := by
  rw [exec_issuedCommand hcmd, hlegal]
  exact issue_open hi hg hf i v cmd payload

/-- An empty FIFO has a free slot (00_scope.md R9). -/
theorem not_queueFull_of_empty {s : State} (hc : s.cfg.wf) (hf : s.q.fifo = []) : ¬ s.queueFull := by
  intro hfull
  rw [State.queueFull, hf, List.length_nil] at hfull
  have hcap : 1 ≤ s.cfg.queueCapacity := hc
  omega

/-- Settles O30: past the gate and the capacity check the command is the `q_add` of a device command. -/
theorem issueStartsOnIdleQueue : Obligations.IssueStartsOnIdleQueue := by
  intro i v cmd payload s w rest hcmd hlegal hi hg hc hin hf hw ha
  refine ⟨newCommand v cmd payload s.freeCount, rfl, rfl, fun d => newCommand_data, rfl, ?_⟩
  exact runsTo_of_advance
    (exec_issuedCommand_open hcmd hlegal hi hg (not_queueFull_of_empty hc hf))
    (runAll_queueAddNew_idle hi hin hf hc hw ha (some i) v cmd payload) rfl

/-- Settles O31: the same `q_add` behind the command in flight. -/
theorem issueQueuesBehind : Obligations.IssueQueuesBehind := by
  intro i v cmd payload s c₀ hcmd hlegal hi hg hin hf
  refine ⟨newCommand v cmd payload s.freeCount, rfl, rfl, fun d => newCommand_data, rfl, ?_⟩
  exact runsTo_of_advance (exec_issuedCommand_open hcmd hlegal hi hg hf.ne)
    (runAll_queueAddNew_behind hi hin hf (some i) v cmd payload) rfl

/-! `kbd_select_scancode_set` (R247). -/

/-- The command that sets the scancode set `n`. -/
def setCommand (n : Byte) (s : State) : Command :=
  newCommand .sendCommandAndData 0xF0 (some n) s.freeCount

/-- The command that asks for the scancode set. -/
def queryCommand (s : State) : Command :=
  newCommand .sendCommandAndDataAndReceiveResponse 0xF0 (some 0x00) (s.freeCount + 3)

/-- The sequence of `kbd_select_scancode_set`, accepted by an idle block. -/
def selectStarted (n : Byte) (s : State) : State :=
  ((unanswered s).usesFree 2).continueAt (some (.kbdSelectScancodeSet n))
    [.queueAdd (setCommand n s), .queueAdd (queryCommand s), .ret (.ok .unit)]

/-- Where the pair fits, it is queued by two `q_add`. -/
theorem exec_kbdSelectScancodeSet_open {n : Byte} {s : State} (hn : n = 1 ∨ n = 2 ∨ n = 3)
    (hi : Idle s) (hg : SessionOpen s)
    (hf : s.q.fifo.length + scancodeSlots s ≤ s.cfg.queueCapacity) :
    exec (.kbdSelectScancodeSet n) s = .next (advance (selectStarted n s)) := by
  have hfits : ¬ s.cfg.queueCapacity - s.q.fifo.length < scancodeSlots s := by omega
  rw [exec, execKbdSelectScancodeSet, accept_idle hi, sessionGate_open (s := unanswered s) hg,
    if_pos (scancodeSetLegal_of_set hn), if_neg (by exact hfits)]
  rfl

/-- On an idle queue the first `q_add` starts the set command, so that the query waits behind it. -/
theorem runAll_selectStarted_idle {n : Byte} {s : State} {w rest : List Byte} (hi : Idle s)
    (hin : s.q.inflight = none) (hf : s.q.fifo = []) (hc : s.cfg.wf) (hw : InputWait w)
    (ha : s.env.answers = w ++ rest) :
    runAll (selectStarted n s) =
      answered { keyboardWritten s w rest 0xF0 with
        q := { fifo := [queryCommand s], inflight := some (setCommand n s) }
        freeCount := s.freeCount + 6 } (.ok .unit) := by
  have hcap : 0 ≠ s.cfg.queueCapacity := (Nat.lt_of_lt_of_le Nat.zero_lt_one hc).ne
  rw [selectStarted, runAll_queueAdd_idle (s := (unanswered s).usesFree 2) hin hf hc hw ha,
    runAll_queueAdd_behind (c₀ := setCommand n s) rfl (by simpa using hcap), runAll_ret,
    keyboardWritten_usesFree, keyboardWritten_unanswered, returns_of_idle (by simpa using hi)]
  simp [answered, unanswered, State.usesFree, setCommand, newCommand]

/-- With a command in flight both wait. -/
theorem runAll_selectStarted_behind {n : Byte} {s : State} {c₀ : Command} (hi : Idle s)
    (hin : s.q.inflight = some c₀) (hf : s.q.fifo.length + 2 ≤ s.cfg.queueCapacity) :
    runAll (selectStarted n s) =
      answered { s with
        q := { fifo := s.q.fifo ++ [setCommand n s, queryCommand s], inflight := some c₀ }
        freeCount := s.freeCount + 6 } (.ok .unit) := by
  have hfirst : s.q.fifo.length ≠ s.cfg.queueCapacity := by omega
  have hsecond : (s.q.fifo ++ [setCommand n s]).length ≠ s.cfg.queueCapacity := by
    rw [List.length_append, List.length_singleton]
    omega
  rw [selectStarted, runAll_queueAdd_behind (s := (unanswered s).usesFree 2) hin hfirst,
    runAll_queueAdd_behind (c₀ := c₀) rfl hsecond, runAll_ret, returns_of_idle (by exact hi)]
  simp [answered, unanswered, State.usesFree]

/-- Settles O33: one free slot is enough on an idle queue, as the set command leaves the FIFO at once. -/
theorem selectScancodeSetResult : Obligations.SelectScancodeSetResult := by
  intro n s hn hi hg
  refine ⟨setCommand n s, queryCommand s, ⟨rfl, rfl, rfl, rfl⟩, ⟨rfl, rfl, rfl, rfl⟩,
    fun w rest hin hf hc hw ha => ?idle, fun c₀ hin hf => ?behind⟩
  case idle =>
    have hfits : s.q.fifo.length + scancodeSlots s ≤ s.cfg.queueCapacity := by
      rw [scancodeSlots, if_pos hin, hf]
      exact hc
    exact runsTo_of_advance (exec_kbdSelectScancodeSet_open hn hi hg hfits)
      (runAll_selectStarted_idle hi hin hf hc hw ha) rfl
  case behind =>
    have hfits : s.q.fifo.length + scancodeSlots s ≤ s.cfg.queueCapacity := by
      rw [scancodeSlots, if_neg (by simp [hin])]
      exact hf
    exact runsTo_of_advance (exec_kbdSelectScancodeSet_open hn hi hg hfits)
      (runAll_selectStarted_behind hi hin hf) rfl

/-! `kbd_receive` of a byte that is no sentinel (R234 to R236): the routing of the byte by itself. -/

theorem runsTo_kbdReceive {b : Byte} {s u : State} (hi : Idle s) (hg : SessionOpen s)
    (hu : ∀ op, runAll ((unanswered s).continueAt op (sessionReceive s b)) = u) :
    RunsTo (.kbdReceive b) s u :=
  runsTo_of_advance (receiveByte_open hi hg) (hu _) rfl

/-- Settles O44: the routing on an idle queue, as of the byte by itself. -/
theorem kbdReceiveIdle : Obligations.KbdReceiveIdle := fun _ _ hi hg hin hb =>
  runsTo_kbdReceive hi hg (runAll_receive_idleQueue hi hin hb)

/-- Settles O45: the routing with a command in flight, as of the byte by itself. -/
theorem kbdReceiveActive : Obligations.KbdReceiveActive := fun _ _ _ _ _ hi hg hin hb ha =>
  runsTo_kbdReceive hi hg (runAll_receive_inFlight hi hin hb ha)

/-! The sentinels (R232, R233), in the order in which the session tests for them (R251). -/

theorem sessionReceive_overrun (s : State) :
    sessionReceive s s.cfg.overrunCode = [.ret (.err .keyDetectionOverrun)] := if_pos rfl

theorem sessionReceive_batFail {s : State} (h : s.cfg.overrunCode ≠ 0xFC) :
    sessionReceive s 0xFC = [.ret (.err .batFailed)] := (if_neg h.symm).trans (if_pos rfl)

theorem sessionReceive_batOk {s : State} (h : s.cfg.overrunCode ≠ 0xAA) :
    sessionReceive s 0xAA = batCompletedSteps :=
  (if_neg h.symm).trans ((if_neg (by decide)).trans (if_pos rfl))

theorem runAll_receive_overrun {s : State} (hi : Idle s) (op : Option Instr) :
    runAll ((unanswered s).continueAt op (sessionReceive s s.cfg.overrunCode)) =
      answered s (.err .keyDetectionOverrun) := by
  rw [sessionReceive_overrun, runAll_ret, returns_of_idle (by exact hi), answered_unanswered]

theorem runAll_receive_batFail {s : State} (hi : Idle s) (h : s.cfg.overrunCode ≠ 0xFC)
    (op : Option Instr) :
    runAll ((unanswered s).continueAt op (sessionReceive s 0xFC)) = answered s (.err .batFailed) := by
  rw [sessionReceive_batFail h, runAll_ret, returns_of_idle (by exact hi), answered_unanswered]

theorem runAll_receive_batOk {s : State} (hi : Idle s) (h : s.cfg.overrunCode ≠ 0xAA)
    (op : Option Instr) :
    runAll ((unanswered s).continueAt op (sessionReceive s 0xAA)) =
      batCompleted s (Config.decoderReset s.decoder) := by
  rw [sessionReceive_batOk h, batCompletedSteps, runAll_setMarker, runAll_resetDecoder, runAll_ret,
    returns_of_idle (by exact hi)]
  rfl

/-- Settles O43: `kbd_receive` and the byte by itself are the same routing; the decoder's progress is that
of its reset. -/
theorem sessionSentinels : Obligations.SessionSentinels := by
  intro s hi hg
  have hoverrun := runAll_receive_overrun hi
  refine ⟨Config.decoderReset s.decoder, runsTo_kbdReceive hi hg hoverrun,
    fun i hb => runsTo_of_routing hb hi hg hoverrun, fun hne => ?batFail, fun hne => ?batOk⟩
  case batFail =>
    have hfail := runAll_receive_batFail hi hne
    exact ⟨runsTo_kbdReceive hi hg hfail, runsTo_of_routing rfl hi hg hfail⟩
  case batOk =>
    have hok := runAll_receive_batOk hi hne
    exact ⟨runsTo_kbdReceive hi hg hok, runsTo_of_routing rfl hi hg hok⟩

/-! What the session leaves unchanged. A micro-step of the session writes within a footprint when the part
it writes is in it; the queue's two steps bring a keyboard write with them, and that byte may go where a
parameter command awaits it (20_memory.md R63). -/

/-- The micro-step is one of the session's, and nothing it or the command it starts writes lies outside
the footprint. -/
def sessionStepWithin (f : Footprint) : Micro → Bool
  | .pollInput | .ret _ => true
  | .writeData _ => f.kbdSent
  | .queueAdd _ | .finishCommand => f.queue && f.kbdSent
  | .setInflight _ => f.queue
  | .setMarker _ => f.marker
  | .resetDecoder | .decodeByte _ => f.decoder
  | _ => false

/-- The rest of the sequence is within the footprint, nothing outside it has changed since `s₀`, and no
other parameter command has come to await its byte. -/
structure SessionWithin (f : Footprint) (s₀ s : State) : Prop where
  framed : Framed f s₀ s
  awaited : s.env.pending = s₀.env.pending ∨ s.env.pending = none
  steps : (stepsLeft s).all (sessionStepWithin f) = true

theorem SessionWithin.trans {f : Footprint} {s t u : State} (h : SessionWithin f s t)
    (h' : SessionWithin f t u) : SessionWithin f s u where
  framed := framed_trans_of_awaited h.framed h.awaited h'.framed
  awaited := h'.awaited.elim (fun e => e ▸ h.awaited) .inr
  steps := h'.steps

/-- A command that starts, or the empty slot, is the queue's, and the write it brings the keyboard's
(43_command_queue.md R192, R208). -/
theorem startFront_sessionWithin {f : Footprint} (hq : f.queue = true) (hk : f.kbdSent = true)
    (s : State) (q : Queue) (op : Option Instr) {p : List Micro}
    (hp : p.all (sessionStepWithin f) = true) :
    SessionWithin f s (({ s with q := q }).startFront op p) := by
  unfold State.startFront
  split
  · exact ⟨by simp [Framed, hq], .inl rfl, hp⟩
  · refine ⟨by simp [Framed, hq], .inl rfl, ?_⟩
    simp [stepsLeft, devWriteKbd, sessionStepWithin, hk, hp]

theorem microExec_sessionWithin {f : Footprint} {op : Option Instr} {m : Micro} {p : List Micro}
    {s s' : State} (hu : s.ctl.upc = .running op (m :: p)) (hm : sessionStepWithin f m = true)
    (hp : p.all (sessionStepWithin f) = true) (h : microExec op m p s = some s') :
    SessionWithin f s s' := by
  cases m
  case pollInput =>
    have hleft : (stepsLeft s).all (sessionStepWithin f) = true := by
      rw [stepsLeft_running hu, List.all_cons, hm, hp]
      rfl
    simp only [microExec] at h
    split at h
    · cases h
    · split at h <;> cases h
      · exact ⟨by simp [Framed], .inl rfl, hleft⟩
      · exact ⟨by simp [Framed], .inl rfl, hp⟩
  case writeData d =>
    cases h
    exact ⟨framed_writesData_keyboard hm s d, .inr (State.writesData_env_pending s d), hp⟩
  case queueAdd c =>
    obtain ⟨hq, hk⟩ := Bool.and_eq_true_iff.mp hm
    simp only [microExec] at h
    split at h
    · cases h
      exact ⟨by simp [Framed], .inl rfl, rfl⟩
    · split at h <;> cases h
      · exact startFront_sessionWithin hq hk s _ op hp
      · exact ⟨by simp [Framed, hq], .inl rfl, hp⟩
  case finishCommand =>
    obtain ⟨hq, hk⟩ := Bool.and_eq_true_iff.mp hm
    cases h
    exact startFront_sessionWithin hq hk s s.q op hp
  case ret | decodeByte =>
    cases h
    exact ⟨by simp_all [Framed, sessionStepWithin], .inl rfl, rfl⟩
  case setInflight | setMarker | resetDecoder =>
    cases h
    exact ⟨by simp_all [Framed, sessionStepWithin], .inl rfl, hp⟩
  all_goals cases hm

theorem microStep_sessionWithin {f : Footprint} {s s' : State}
    (hs : (stepsLeft s).all (sessionStepWithin f) = true) (h : microStep s = some s') :
    SessionWithin f s s' := by
  unfold microStep at h
  split at h
  · cases h
  · cases h
    exact ⟨by simp [Framed], .inl rfl, rfl⟩
  · rename_i hu
    rw [stepsLeft_running hu, List.all_cons, Bool.and_eq_true] at hs
    obtain ⟨hm, hp⟩ := hs
    exact microExec_sessionWithin hu hm hp h

/-- So far as a step of the model goes with it, a sequence of the session is framed by its footprint. -/
theorem advance_sessionWithin {f : Footprint} {s₀ s : State} (h : SessionWithin f s₀ s) :
    SessionWithin f s₀ (advance s) :=
  advance_induction (fun _ _ h hm => h.trans (microStep_sessionWithin h.steps hm)) h

/-! The sequences that the session starts. -/

theorem rowSteps_sessionWithin {f : Footprint} (hq : f.queue = true) (hk : f.kbdSent = true)
    (row : CheckerRow) : (rowSteps row).all (sessionStepWithin f) = true := by
  have hwrite : (rowWrite row).all (sessionStepWithin f) = true := by
    unfold rowWrite
    split
    · rfl
    · simp [devWriteKbd, sessionStepWithin, hk]
  rw [rowSteps, List.all_append, hwrite, Bool.true_and]
  split
  · simp [sessionStepWithin, hq]
  · simp [sessionStepWithin, hq, hk]
  · rfl

theorem markerSteps_sessionWithin {f : Footprint} (hm : f.marker = true) (c : Command) :
    (markerSteps c).all (sessionStepWithin f) = true := by
  unfold markerSteps
  split
  · split_ifs <;> simp [sessionStepWithin, hm]
  · rfl

theorem sessionAnswer_sessionWithin {f : Footprint} (hm : f.marker = true) (hd : f.decoder = true)
    (st : QueueStatus) : (sessionAnswer st).all (sessionStepWithin f) = true := by
  cases st with
  | commandInProgress => rfl
  | unexpectedData b => simp [sessionAnswer, sessionStepWithin, hd]
  | commandFinished c =>
    rw [sessionAnswer, onFinished]
    split
    case h_1 =>
      rw [List.all_append, markerSteps_sessionWithin hm]
      rfl
    all_goals simp [sessionStepWithin, hd]

theorem batCompletedSteps_sessionWithin {f : Footprint} (hm : f.marker = true)
    (hd : f.decoder = true) : batCompletedSteps.all (sessionStepWithin f) = true := by
  simp [batCompletedSteps, sessionStepWithin, hm, hd]

/-- The routing of any byte writes the queue, the marker, the decoder and the keyboard (R251). -/
theorem sessionReceive_sessionWithin {f : Footprint} (hq : f.queue = true) (hm : f.marker = true)
    (hd : f.decoder = true) (hk : f.kbdSent = true) (s : State) (b : Byte) :
    (sessionReceive s b).all (sessionStepWithin f) = true := by
  unfold sessionReceive
  split
  · rfl
  split
  · rfl
  split
  · exact batCompletedSteps_sessionWithin hm hd
  split
  · split <;> simp [sessionStepWithin, hd]
  · rw [receiveSteps, List.all_append, rowSteps_sessionWithin hq hk,
      sessionAnswer_sessionWithin hm hd]
    rfl

/-- Every session instruction starts a sequence within its footprint, and takes free values only for a
command record. -/
theorem sessionInstr_starts {i : Instr} (hc : isSessionInstr i = true) {s : State} {k : Nat}
    {prog : List Micro} (h : Starts i s k prog) :
    (k = 0 ∨ (footprint i).freeCount = true) ∧
      prog.all (sessionStepWithin (footprint i)) = true := by
  cases i
  case kbdReceive | respAck | respResend | respEchoReply =>
    obtain ⟨-, rfl, rfl⟩ := h
    exact ⟨.inl rfl, sessionReceive_sessionWithin rfl rfl rfl rfl s _⟩
  case respKeyDetectionOverrun =>
    obtain ⟨-, rfl, rfl⟩ := h
    rw [sessionReceive_overrun]
    exact ⟨.inl rfl, rfl⟩
  case respBatFail =>
    obtain ⟨-, rfl, rfl⟩ := h
    refine ⟨.inl rfl, ?_⟩
    by_cases hne : s.cfg.overrunCode = 0xFC
    · rw [← hne, sessionReceive_overrun]
      rfl
    · rw [sessionReceive_batFail hne]
      rfl
  case respBatOk =>
    obtain ⟨-, rfl, rfl⟩ := h
    refine ⟨.inl rfl, ?_⟩
    by_cases hne : s.cfg.overrunCode = 0xAA
    · rw [← hne, sessionReceive_overrun]
      rfl
    · rw [sessionReceive_batOk hne]
      exact batCompletedSteps_sessionWithin rfl rfl
  case kbdSetTypematic =>
    obtain ⟨-, -, -, rfl⟩ := h
    exact ⟨.inr rfl, rfl⟩
  case kbdDisable | kbdSetDefaults | kbdEnable | kbdSetLeds | kbdSelectScancodeSet | kbdReadId |
      kbdEcho | devSetIndicators | devEcho | devSelectScancodeSet | devReadId | devSetTypematic |
      devEnable | devDisable | devSetDefaults =>
    obtain ⟨-, -, rfl⟩ := h
    exact ⟨.inr rfl, rfl⟩
  all_goals cases hc

/-- Accepting an instruction clears the last result and counts the free values it takes. -/
theorem framed_accepted {f : Footprint} {k : Nat} (hk : k = 0 ∨ f.freeCount = true) (s : State)
    (op : Option Instr) (prog : List Micro) :
    Framed f s (((unanswered s).usesFree k).continueAt op prog) := by
  rcases hk with rfl | hfree
  · simp [Framed]
  · simp [Framed, hfree]

/-- Settles O50: an instruction of the session does nothing, ends with an error, or runs a sequence within
its footprint. -/
theorem frameSession : Obligations.FrameSession := by
  intro i s t hc hi h
  rcases exec_idle_cases hi h with rfl | ⟨e, rfl⟩ | ⟨k, prog, hst, rfl⟩
  · exact framed_refl _ _
  · simp [Framed]
  · obtain ⟨hfree, hsteps⟩ := sessionInstr_starts hc hst
    have hwithin := advance_sessionWithin
      ⟨framed_accepted hfree s (some i) prog, .inl rfl, hsteps⟩
    exact hwithin.framed

end Sys2Proof.Machine
end

section
/-! The exceptions (60_exceptions.md): the codes (R271), and the three errors that turn an operation away
before its first port transaction, in the order of R285: the state (R273), the device (R277), the operand
(R274). What an operation checks is said once as an equation for `exec` (`exec_checksState`,
`exec_checksDevice`); what the checks answer is said once for every body behind them. -/

namespace Sys2Proof.Machine

open Sys2Proof.Safety

/-- Settles O10: each error and each event is a row of its table. -/
theorem errorAndEventCodes : Obligations.ErrorAndEventCodes :=
  ⟨⟨rfl, rfl, rfl, rfl, rfl, rfl, rfl⟩, fun _ _ => rfl, fun _ _ => rfl, fun _ => rfl, fun _ => rfl,
    fun _ => rfl, rfl, fun _ => rfl, rfl, fun _ _ => rfl, fun _ => rfl, rfl⟩

/-- An error at once, behind the acceptance of the request (R283). -/
theorem fail_unanswered {s : State} (hi : Idle s) (e : Err) :
    fail e (unanswered s) = .next (answered s (.err e)) :=
  (fail_of_idle (s := unanswered s) hi e).trans (by rw [answered_unanswered])

/-! What an operation checks (R150, R285). -/

/-- The body of an operation behind the check of its device, bit `k` of `ctl.sel` (R277). -/
def behindDevice (k : Nat) (body : State → Host.Outcome State Fault Refusal) (s : State) :
    Host.Outcome State Fault Refusal :=
  if s.ctl.sel.getLsbD k then body s else fail .deviceNotEnabled s

/-- The session's gate is the check of the state and then that of the keyboard (44_keyboard_session.md
R238). -/
theorem sessionGate_eq_inState (s : State) (body : State → Host.Outcome State Fault Refusal) :
    sessionGate s body = inState .enabledDevices s (behindDevice 0 body) := rfl

/-- An operation that addresses a device checks the device's bit of `ctl.sel` behind the state. -/
theorem exec_checksDevice {i : Instr} {k : Nat} (h : deviceBit i = some k) :
    ∃ body, ∀ s, exec i s =
      accept s fun s => inState .enabledDevices s (behindDevice k body) := by
  cases i
  case sendToKeyboard | sendToAuxiliaryDevice =>
    cases h
    exact ⟨_, fun _ => rfl⟩
  case kbdReceive | kbdDisable | kbdSetDefaults | kbdEnable | kbdSetLeds | kbdSetTypematic |
      kbdSelectScancodeSet | kbdReadId | kbdEcho =>
    cases h
    simp only [← sessionGate_eq_inState]
    exact ⟨_, fun _ => rfl⟩
  all_goals cases h

theorem exec_checksEnabled {i : Instr} {k : Nat} (h : deviceBit i = some k) :
    ∃ body, ∀ s, exec i s = accept s fun s => inState .enabledDevices s body :=
  let ⟨body, hexec⟩ := exec_checksDevice h
  ⟨behindDevice k body, hexec⟩

/-- Every host operation but `read_status` checks first that the protocol state is the one the table of
R288 allows it in. -/
theorem exec_checksState {i : Instr} {l : List ProtocolState} (h : legalStates i = some l) :
    i = .readStatus ∨ ∃ st, l = [st] ∧
      ∃ body, ∀ s, exec i s = accept s fun s => inState st s body := by
  cases i
  case readStatus => exact .inl rfl
  case startInit | setTranslation | selfTest | keyboardInterfaceTest | auxInterfaceTest | ramRead |
      ramWrite | cpuReset | enableDevices | enableDevicesAndInterrupts | pollData | disableDevices =>
    cases h
    exact .inr ⟨_, rfl, _, fun _ => rfl⟩
  case sendToKeyboard | sendToAuxiliaryDevice | kbdReceive | kbdDisable | kbdSetDefaults | kbdEnable |
      kbdSetLeds | kbdSetTypematic | kbdSelectScancodeSet | kbdReadId | kbdEcho =>
    cases h
    exact .inr ⟨_, rfl, exec_checksEnabled rfl⟩
  all_goals cases h

/-! The protocol state (R273). -/

theorem operation_wrongState {st : ProtocolState} {s : State} (hi : Idle s) (hst : s.ctl.state ≠ st)
    (body : State → Host.Outcome State Fault Refusal) :
    (accept s fun s => inState st s body) = .next (answered s (.err .wrongState)) :=
  (accept_idle hi _).trans
    ((inState_other (s := unanswered s) hst body).trans (fail_unanswered hi _))

/-- Settles O24: `read_status` is legal in every state, and the other operations check theirs first. -/
theorem wrongStateRefused : Obligations.WrongStateRefused := by
  intro i l s hl hi hst
  rcases exec_checksState hl with rfl | ⟨st, rfl, body, hexec⟩
  · cases hl
    cases hs : s.ctl.state <;> simp [hs] at hst
  · rw [hexec]
    exact operation_wrongState hi (by simpa using hst) body

/-! The device (R277). -/

theorem behindDevice_notEnabled {s : State} {k : Nat} (h : s.ctl.sel.getLsbD k = false)
    (body : State → Host.Outcome State Fault Refusal) :
    behindDevice k body s = fail .deviceNotEnabled s := if_neg (by simp [h])

/-- Settles O25: the device's bit is checked before the operand is looked at. -/
theorem deviceNotEnabledRefused : Obligations.DeviceNotEnabledRefused := by
  intro i k s hk hi hst hsel
  obtain ⟨body, hexec⟩ := exec_checksDevice hk
  rw [hexec, operation_accepted hi hst, behindDevice_notEnabled (s := unanswered s) hsel]
  exact fail_unanswered hi _

/-! The operand (R274). -/

/-- The checks that an exposed operation has passed when its operand is looked at. -/
theorem state_of_exposed {s : State} {i : Instr} {st : ProtocolState} (h : Exposed s i)
    (hl : legalStates i = some [st]) : s.ctl.state = st := by
  obtain ⟨hstate, -⟩ := h
  simpa using hstate _ hl

theorem sessionOpen_of_exposed {s : State} {i : Instr} (h : Exposed s i)
    (hl : legalStates i = some [.enabledDevices]) (hk : deviceBit i = some 0) : SessionOpen s := by
  have hst := state_of_exposed h hl
  obtain ⟨-, hdevice⟩ := h
  exact ⟨hst, hdevice _ hk⟩

/-- The selector 0b00 selects no device (30_encoding.md R93). -/
theorem enableOperation_noDevice {s : State} (hi : Idle s) (hst : s.ctl.state = .devicesDisabled)
    (i : Instr) (irq : Bool) :
    enableOperation i 0 irq s = .next (answered s (.err .badOperand)) :=
  (operation_accepted hi hst _).trans (fail_unanswered hi _)

/-- An illegal operand of an issued command is met before the capacity check (44_keyboard_session.md
R239). -/
theorem issue_illegal {s : State} (hi : Idle s) (hg : SessionOpen s) (i : Instr) (v : Variant)
    (cmd : Byte) (payload : Option Byte) :
    issue i false v cmd payload s = .next (answered s (.err .badOperand)) := by
  rw [issue, accept_idle hi, sessionGate_open (s := unanswered s) hg, if_neg Bool.false_ne_true]
  exact fail_unanswered hi _

theorem execKbdSelectScancodeSet_illegal {s : State} {n : Byte} (hn : scancodeSetLegal n = false)
    (hi : Idle s) (hg : SessionOpen s) :
    execKbdSelectScancodeSet n s = .next (answered s (.err .badOperand)) := by
  rw [execKbdSelectScancodeSet, accept_idle hi, sessionGate_open (s := unanswered s) hg,
    if_neg (by simp [hn])]
  exact fail_unanswered hi _

/-- Settles O26: the six operations with a restricted operand, each past the checks that `Exposed` says
it passes. -/
theorem badOperandRefused : Obligations.BadOperandRefused := by
  intro i s hbad hi hexp
  cases i
  case ramRead idx | ramWrite idx v =>
    have hidx : idx = 0 := by simpa [operandIllegal] using hbad
    exact (operation_accepted hi (state_of_exposed hexp rfl) _).trans
      ((if_pos hidx).trans (fail_unanswered hi _))
  case enableDevices sel | enableDevicesAndInterrupts sel =>
    obtain rfl : sel = 0 := by simpa [operandIllegal] using hbad
    unfold exec
    exact enableOperation_noDevice hi (state_of_exposed hexp rfl) _ _
  case kbdSetTypematic rate =>
    rw [exec_issuedCommand (i := .kbdSetTypematic rate) rfl, hbad]
    exact issue_illegal hi (sessionOpen_of_exposed hexp rfl rfl) _ _ _ _
  case kbdSelectScancodeSet n =>
    have hn : scancodeSetLegal n = false := by simpa [operandIllegal, scancodeSetLegal] using hbad
    exact execKbdSelectScancodeSet_illegal hn hi (sessionOpen_of_exposed hexp rfl rfl)
  all_goals cases hbad

end Sys2Proof.Machine
end
